-- ==== Sys2Proof/Word.lean ====
section
/-! DEFINITION. The words of the block and the names that index them: the bus and status words, the slot
names, the status flags, and the shape of a bit field. Operations on them stand in Sys2Proof/Machine/Fields.lean. -/

namespace Sys2Proof

/-- The largest `W` of a configuration of this hardware (30_encoding.md R84, `W <= 24`). `W` itself is the parameter
`Cfg.wordBits`. -/
abbrev maxWordBits : Nat := 24

/-- A `W`-bit word: the content of a slot, a word on the bus, or a status word (20_memory.md R65), in the low `W` bits of a
vector wide enough for every `W`; the bits above are 0 (`Cfg.FitsWord`; log entry 2). -/
abbrev Word := BitVec maxWordBits

/-- A value of the raw load-measurement field (10_state.md R29), below `2^LoadBits` (log entry 2). -/
abbrev Load := BitVec maxWordBits

/-- A stimulus word: a command or a completion event (30_encoding.md R80). -/
abbrev StimulusWord := BitVec 64

/-- A pending bitmap, one bit per slot (10_state.md R23). -/
abbrev Pending := BitVec 5

/-- The five register slots, in transmit priority (10_state.md R21). -/
inductive Slot where
  | driveControl
  | stallGuardConfig
  | chopperControl
  | driveConfig
  | smartEnable
deriving DecidableEq, Repr

/-- One value for each slot: the array index `[s]`, `s` in 0..4, of 20_memory.md R61. -/
structure Slots (α : Type) where
  driveControl : α
  stallGuardConfig : α
  chopperControl : α
  driveConfig : α
  smartEnable : α
deriving DecidableEq, Repr

/-- A bit field of a word: bits `[lo + width - 1 : lo]` (00_scope.md R10). -/
structure Field where
  lo : Nat
  width : Nat
deriving DecidableEq, Repr

/-- The flags of a status word (30_encoding.md R96). -/
inductive StatusFlag where
  /-- stall -/
  | sg
  /-- over-temperature -/
  | ot
  /-- over-temperature-warning -/
  | otpw
  /-- short-to-ground, one fault: any of its bits set -/
  | s2g
  /-- open-load-A -/
  | ola
  /-- open-load-B -/
  | olb
  /-- standstill -/
  | stst
deriving DecidableEq, Repr

end Sys2Proof
end

