-- ==== Sys2Proof/Config.lean ====
section
/-! DEFINITION. The configuration record `Cfg` of 00_scope.md R5, and the reference configuration. The constraints
of R5 are the predicate `Cfg.Valid` of Sys2Proof/WellFormed.lean. -/

namespace Sys2Proof

/-- The bit fields inside the slots (30_encoding.md R91 to R95, decision D5). -/
structure SlotLayout where
  mres : Field
  intpol : Field
  cs : Field
  sgt : Field
  sfilt : Field
  toff : Field
  tbl : Field
  rdsel : Field
  vsense : Field
deriving DecidableEq, Repr

/-- The fields of a status word (30_encoding.md R96, decision D6). -/
structure StatusLayout where
  sg : Field
  ot : Field
  otpw : Field
  s2g : Field
  ola : Field
  olb : Field
  stst : Field
  load : Field
deriving DecidableEq, Repr

/-- The "fixed linear formula" from milliamps to the current-scale code: `floor((scale * I + offset) / divisor)`
(00_scope.md R5, decision D9; log entry 14). -/
structure CurrentFormula where
  scale : Nat
  offset : Int
  divisor : Nat
deriving DecidableEq, Repr

/-- `Cfg`: everything the block is parameterised by (00_scope.md R5), as plain data. -/
structure Cfg where
  /-- `MaxDrivers`, OPEN (D3) -/
  maxDrivers : Nat
  /-- `W`, the width of a slot word and of a status word (D4) -/
  wordBits : Nat
  /-- `LoadBits`, the width of the raw load-measurement field (D6) -/
  loadBits : Nat
  /-- `TAG[s]` (D4) -/
  tag : Slots Word
  /-- `PAYLOAD_MASK[s]` (D4) -/
  payloadMask : Slots Word
  /-- field positions inside the slots (D5) -/
  slotLayout : SlotLayout
  /-- field positions inside a status word (D6) -/
  statusLayout : StatusLayout
  /-- `MresCode(shift)` for `shift` = 0..8, in order (D7) -/
  mresCodes : List Nat
  /-- `DEFAULT[s]` (D8) -/
  defaults : Slots Word
  /-- `DefaultShift` (D8) -/
  defaultShift : Nat
  /-- `DefaultInterp` (D8) -/
  defaultInterp : Bool
  /-- `MinCurrent`, milliamps (D9) -/
  minCurrent : Nat
  /-- `MaxCurrent`, milliamps (D9) -/
  maxCurrent : Nat
  /-- `CurrentCode` (D9) -/
  currentFormula : CurrentFormula
  /-- `StepClockRate`, OPEN (D10) -/
  stepClockRate : Nat
  /-- `DefaultMinSps` (D10) -/
  defaultMinSps : Nat
  /-- `AxisOf(d)`, OPEN, element `d` (D20; log entry 15) -/
  axisOf : List Nat
  /-- `SelectMap(d)`, OPEN, element `d` (D21; log entry 15) -/
  selectMap : List Nat
  /-- `BENIGN`, read by the text layer's item rule only (41_status_accumulator.md R138, D25) -/
  benign : List StatusFlag
deriving DecidableEq, Repr

/-- The reference configuration: the reference value of every field (00_scope.md R5, 30_encoding.md R90 to R97). -/
def Cfg.reference : Cfg where
  maxDrivers := 10
  wordBits := 20
  loadBits := 10
  tag := ⟨0x00000, 0xC0000, 0x80000, 0xE0000, 0xA0000⟩
  payloadMask := ⟨0x3FFFF, 0x1FFFF, 0x1FFFF, 0x1FFFF, 0x1FFFF⟩
  slotLayout :=
    { mres := ⟨0, 4⟩, intpol := ⟨9, 1⟩
      cs := ⟨0, 5⟩, sgt := ⟨8, 7⟩, sfilt := ⟨16, 1⟩
      toff := ⟨0, 4⟩, tbl := ⟨15, 2⟩
      rdsel := ⟨4, 2⟩, vsense := ⟨6, 1⟩ }
  statusLayout :=
    { sg := ⟨0, 1⟩, ot := ⟨1, 1⟩, otpw := ⟨2, 1⟩, s2g := ⟨3, 2⟩
      ola := ⟨5, 1⟩, olb := ⟨6, 1⟩, stst := ⟨7, 1⟩, load := ⟨10, 10⟩ }
  mresCodes := [8, 7, 6, 5, 4, 3, 2, 1, 0]
  defaults := ⟨0x00204, 0xC0100, 0x901B4, 0xE0050, 0xA0000⟩
  defaultShift := 4
  defaultInterp := true
  minCurrent := 100
  maxCurrent := 2400
  currentFormula := ⟨32, -1600, 3236⟩
  stepClockRate := 937500
  defaultMinSps := 200
  axisOf := [0, 1, 2, 3, 4, 5, 6, 7, 8, 9]
  selectMap := [0, 1, 2, 3, 4, 5, 6, 7, 8, 9]
  benign := [.ola, .olb]

end Sys2Proof
end

