-- ==== Sys2Proof/Machine/Fields.lean ====
section
/-! DEFINITION. Reading and writing bit fields and slots: the primitives `reg[d][s].F`, `reg[d][s].F <- v` and
`pend[d][s]` of 00_scope.md R11. -/

namespace Sys2Proof

/-- The index of a slot, its transmit priority, 0 highest (10_state.md R21, 20_memory.md R61). -/
def Slot.index : Slot → Nat
  | .driveControl => 0
  | .stallGuardConfig => 1
  | .chopperControl => 2
  | .driveConfig => 3
  | .smartEnable => 4

/-- The slots in the order 0..4 (20_memory.md R61). -/
def Slot.all : List Slot :=
  [.driveControl, .stallGuardConfig, .chopperControl, .driveConfig, .smartEnable]

/-- Element `s` of a slot array. -/
def Slots.get {α : Type} (r : Slots α) : Slot → α
  | .driveControl => r.driveControl
  | .stallGuardConfig => r.stallGuardConfig
  | .chopperControl => r.chopperControl
  | .driveConfig => r.driveConfig
  | .smartEnable => r.smartEnable

/-- A slot array with element `s` replaced. -/
def Slots.set {α : Type} (r : Slots α) (s : Slot) (v : α) : Slots α :=
  match s with
  | .driveControl => { r with driveControl := v }
  | .stallGuardConfig => { r with stallGuardConfig := v }
  | .chopperControl => { r with chopperControl := v }
  | .driveConfig => { r with driveConfig := v }
  | .smartEnable => { r with smartEnable := v }

/-- The bits of a word that belong to a field. -/
def Field.mask (f : Field) : Word :=
  BitVec.ofNat maxWordBits (2 ^ f.width - 1) <<< f.lo

/-- `w.F`: the unsigned integer in field `F` of `w` (00_scope.md R10, R11). -/
def Field.get (f : Field) (w : Word) : Nat :=
  ((w &&& f.mask) >>> f.lo).toNat

/-- `w.F <- v`: every other bit of the word is unchanged and `v` is truncated to the field's width (00_scope.md R11). -/
def Field.set (f : Field) (w : Word) (v : Nat) : Word :=
  (w &&& ~~~f.mask) ||| ((BitVec.ofNat maxWordBits v <<< f.lo) &&& f.mask)

/-- `pend[d][s] <- 1` (20_memory.md R72 a). -/
def Pending.mark (p : Pending) (s : Slot) : Pending :=
  p ||| BitVec.ofNat 5 (2 ^ s.index)

/-- `pend[d][s] <- 0` (20_memory.md R72 b). -/
def Pending.unmark (p : Pending) (s : Slot) : Pending :=
  p &&& ~~~BitVec.ofNat 5 (2 ^ s.index)

/-- `pend[d][s]` (10_state.md R23). -/
def Pending.isMarked (p : Pending) (s : Slot) : Bool :=
  p.getLsbD s.index

/-- All five bits set, the full resync of a driver (43_power_control.md R180, R181). -/
def Pending.full : Pending := 0b11111#5

/-- `lowest_set`, the fixed-priority selector: the lowest-indexed pending slot, `none` if nothing is pending
(00_scope.md R11, 40_transfer_scheduler.md R111, R112). -/
def Pending.lowestSet (p : Pending) : Option Slot :=
  Slot.all.find? fun s => Pending.isMarked p s

end Sys2Proof
end

