-- ==== Sys2Proof/Machine/Operands.lean ====
section
/-! DEFINITION. The operand forms and the arithmetic of the operation rules: clamps, codes, the chopper validity
check, slot payloads, step intervals (30_encoding.md R85, R98; 42_config_operations.md). -/

namespace Sys2Proof

/-- `clamp(v, lo, hi)` on mathematical integers (00_scope.md R11). -/
def clamp (v lo hi : Int) : Int :=
  if v < lo then lo else if hi < v then hi else v

/-- The `W` bits of a word: `2^W - 1` (00_scope.md R5). -/
def Cfg.wordMask (c : Cfg) : Word :=
  BitVec.ofNat maxWordBits (2 ^ c.wordBits - 1)

/-- `MresCode(shift)` (00_scope.md R5). -/
def Cfg.mresCode (c : Cfg) (shift : Nat) : Nat :=
  c.mresCodes.getD shift 0

/-- The largest valid microstep shift: `1 << shift` in 1..256 (42_config_operations.md R151). -/
def maxShift : Nat := 8

/-- `clamp(current, MinCurrent, MaxCurrent)` (42_config_operations.md R152). -/
def Cfg.clampCurrent (c : Cfg) (current : Nat) : Nat :=
  (clamp current c.minCurrent c.maxCurrent).toNat

/-- `CurrentCode(I)`, in mathematical integers, at least 0 on `[MinCurrent, MaxCurrent]` (00_scope.md R5,
30_encoding.md R98 item 4; log entry 14). -/
def Cfg.currentCode (c : Cfg) (i : Nat) : Nat :=
  ((c.currentFormula.scale * i + c.currentFormula.offset) / (c.currentFormula.divisor : Int)).toNat

/-- `t mod 128` of the clamped threshold, the 7-bit two's complement value of `SGT` (42_config_operations.md R155,
30_encoding.md R98 items 1 and 2). -/
def stallThresholdCode (v : Int) : Nat :=
  (clamp v (-64) 63 % 128).toNat

/-- `sext_7(SGT)`, the signed threshold a stored field stands for (30_encoding.md R98 item 2). -/
def signedThreshold (sgt : Nat) : Int :=
  (BitVec.ofNat 7 sgt).toInt

/-- `floor(StepClockRate / max(rate, 1))` in 32 bits (42_config_operations.md R158, 30_encoding.md R98 item 3). -/
def Cfg.maxInterval (c : Cfg) (rate : Nat) : BitVec 32 :=
  BitVec.ofNat 32 (c.stepClockRate / max rate 1)

/-- `TAG[s] | (raw & PAYLOAD_MASK[s])`: the whole slot word made of a raw operand; the tag is never taken from the
operand (30_encoding.md R85, 42_config_operations.md R153, R157, decision D19). DESIGN CHOICE: the payload is that of
`PAYLOAD_MASK[s]`, of whatever width, 17 bits in the reference layout (log entry 27). -/
def Cfg.slotWord (c : Cfg) (s : Slot) (raw : Word) : Word :=
  c.tag.get s ||| (raw &&& c.payloadMask.get s)

/-- `CHOP_VALID(x)`: the off-time is not 0, and it is not 1 with a blanking-time of 0 (42_config_operations.md R153). -/
def Cfg.chopValid (c : Cfg) (x : Word) : Bool :=
  c.slotLayout.toff.get x != 0 && !(c.slotLayout.toff.get x == 1 && c.slotLayout.tbl.get x == 0)

/-- The effective chopper value: the configured one while enabled, else the same with `TOFF <- 0`
(10_state.md R25, 42_config_operations.md R153, R154). -/
def Cfg.effectiveChop (c : Cfg) (en : Bool) (x : Word) : Word :=
  if en then x else c.slotLayout.toff.set x 0

/-- `AxisOf(d)` (00_scope.md R5; log entry 15). -/
def Cfg.axis (c : Cfg) (d : Nat) : Nat :=
  c.axisOf.getD d 0

/-- `SelectMap(d)` (00_scope.md R5; log entry 15). -/
def Cfg.select (c : Cfg) (d : Nat) : Nat :=
  c.selectMap.getD d 0

/-- `val` of `GetMicrostepping`: the shift in [7:0], the interpolation bit in [8] (30_encoding.md R87). -/
def microsteppingValue (mshift : BitVec 4) (interp : Bool) : BitVec 64 :=
  mshift.setWidth 64 ||| ((BitVec.ofBool interp).setWidth 64 <<< 8)

/-- `val` of `AppendStatusReport`: the live view, the window and its valid bit (30_encoding.md R87,
41_status_accumulator.md R136). -/
def Cfg.statusReportValue (c : Cfg) (view : Word) (minLoad maxLoad : Load) : BitVec 64 :=
  view.setWidth 64 ||| (minLoad.setWidth 64 <<< c.wordBits)
    ||| (maxLoad.setWidth 64 <<< (c.wordBits + c.loadBits))
    ||| ((BitVec.ofBool (decide (minLoad ≤ maxLoad))).setWidth 64 <<< (c.wordBits + 2 * c.loadBits))

/-- `val` of `AppendStallConfig`: threshold, filter flag, the payload of slot 4, `max_iv`
(30_encoding.md R87, 41_status_accumulator.md R137; log entry 27 on the width of the payload). -/
def Cfg.stallConfigValue (c : Cfg) (stallGuard smartEnable : Word) (maxIv : BitVec 32) : BitVec 64 :=
  BitVec.ofNat 64 (c.slotLayout.sgt.get stallGuard)
    ||| (BitVec.ofNat 64 (c.slotLayout.sfilt.get stallGuard) <<< 7)
    ||| ((smartEnable &&& c.payloadMask.smartEnable).setWidth 64 <<< 8)
    ||| (maxIv.setWidth 64 <<< 32)

end Sys2Proof
end

