-- ==== Sys2Proof/Syntax.lean ====
section
/-! DEFINITION. The operations of the block, one constructor per row of spec/opcode_table.json (30_encoding.md
R80, R83), with their operands as R85 assembles them: integers are `Nat` or `Int`, words taken bit by bit are bit vectors. -/

namespace Sys2Proof

/-- The 18 commands and the one event. `d` is the driver index (log entry 13 on the operand types). -/
inductive Instr where
  /-- R180 -/
  | init (count : Nat)
  /-- R181 -/
  | spin (powered : Bool)
  /-- R182 -/
  | forceOff
  /-- R151 -/
  | setMicrostepping (d shift : Nat) (interp : Bool)
  /-- R152; milliamps -/
  | setCurrent (d current : Nat)
  /-- R153; the payload bits of the operand -/
  | setChopperConfig (d : Nat) (raw : Word)
  /-- R154 -/
  | enable (d : Nat) (on : Bool)
  /-- R155; signed -/
  | setStallThreshold (d : Nat) (v : Int)
  /-- R156 -/
  | setStallFilter (d : Nat) (on : Bool)
  /-- R157; the payload bits of the operand -/
  | setCoolStepConfig (d : Nat) (raw : Word)
  /-- R158; full steps per second -/
  | setStallMinStepsPerSecond (d rate : Nat)
  /-- R160 -/
  | getMicrostepping (d : Nat)
  /-- R161 -/
  | getChopperConfig (d : Nat)
  /-- R162 -/
  | isEnabled (d : Nat)
  /-- R133 -/
  | readLiveStatus (d : Nat)
  /-- R134; the retain-mask -/
  | readAccumulatedStatus (d : Nat) (mask : Word)
  /-- R136 -/
  | appendStatusReport (d : Nat)
  /-- R137 -/
  | appendStallConfig (d : Nat)
  /-- R113; the word received and Motion's answer -/
  | complete (rx : Word) (iv : BitVec 32)
deriving DecidableEq, Repr

/-- The mnemonic of an operation, as spec/opcode_table.json spells it (30_encoding.md R83). -/
def Instr.mnemonic : Instr → String
  | .init _ => "Init"
  | .spin _ => "Spin"
  | .forceOff => "ForceOff"
  | .setMicrostepping _ _ _ => "SetMicrostepping"
  | .setCurrent _ _ => "SetCurrent"
  | .setChopperConfig _ _ => "SetChopperConfig"
  | .enable _ _ => "Enable"
  | .setStallThreshold _ _ => "SetStallThreshold"
  | .setStallFilter _ _ => "SetStallFilter"
  | .setCoolStepConfig _ _ => "SetCoolStepConfig"
  | .setStallMinStepsPerSecond _ _ => "SetStallMinStepsPerSecond"
  | .getMicrostepping _ => "GetMicrostepping"
  | .getChopperConfig _ => "GetChopperConfig"
  | .isEnabled _ => "IsEnabled"
  | .readLiveStatus _ => "ReadLiveStatus"
  | .readAccumulatedStatus _ _ => "ReadAccumulatedStatus"
  | .appendStatusReport _ => "AppendStatusReport"
  | .appendStallConfig _ => "AppendStallConfig"
  | .complete _ _ => "COMPLETE"

/-- The driver index of an indexed command, `none` for `Init`, `Spin`, `ForceOff` and `COMPLETE`
(30_encoding.md R81, 60_exceptions.md R191 F1). -/
def Instr.driverIndex : Instr → Option Nat
  | .init _ => none
  | .spin _ => none
  | .forceOff => none
  | .setMicrostepping d _ _ => some d
  | .setCurrent d _ => some d
  | .setChopperConfig d _ => some d
  | .enable d _ => some d
  | .setStallThreshold d _ => some d
  | .setStallFilter d _ => some d
  | .setCoolStepConfig d _ => some d
  | .setStallMinStepsPerSecond d _ => some d
  | .getMicrostepping d => some d
  | .getChopperConfig d => some d
  | .isEnabled d => some d
  | .readLiveStatus d => some d
  | .readAccumulatedStatus d _ => some d
  | .appendStatusReport d => some d
  | .appendStallConfig d => some d
  | .complete _ _ => none

/-- The agents that issue events (00_scope.md R7); `Motion` issues none. -/
inductive Agent where
  | control
  | bus
  | urgent
deriving DecidableEq, Repr

/-- Which events a context may issue: a calling discipline, not a check the block makes (60_exceptions.md R199;
log entry 17). -/
def Agent.mayIssue : Agent → Instr → Bool
  | .bus, .complete _ _ => true
  | .bus, _ => false
  | .urgent, .forceOff => true
  | .urgent, _ => false
  | .control, .complete _ _ => false
  | .control, _ => true

end Sys2Proof
end

