-- ==== Sys2Proof/Decode.lean ====
section
/-! DEFINITION. The decoder and the encoder of the 64-bit stimulus words (30_encoding.md R80 to R85, R88). -/

namespace Sys2Proof

/-- Why a word is no operation: its opcode is reserved (30_encoding.md R88 a). -/
inductive DecodeError where
  | reservedOpcode (opcode : BitVec 8)
deriving DecidableEq, Repr

/-- `opcode`, bits [63:56] of both formats (30_encoding.md R80). -/
def opcodeField (w : StimulusWord) : BitVec 8 := w.extractLsb' 56 8

/-- `drv`, bits [55:48] of format C, unsigned (30_encoding.md R81, R82). -/
def drvField (w : StimulusWord) : Nat := (w.extractLsb' 48 8).toNat

/-- `operand`, bits [31:0] of format C (30_encoding.md R81). -/
def operandField (w : StimulusWord) : BitVec 32 := w.extractLsb' 0 32

/-- `rx`, bits [32+W-1:32] of format E, [51:32] in the reference configuration (30_encoding.md R84). -/
def rxField (c : Cfg) (w : StimulusWord) : Word := w.extractLsb' 32 maxWordBits &&& c.wordMask

/-- `iv`, bits [31:0] of format E (30_encoding.md R84). -/
def ivField (w : StimulusWord) : BitVec 32 := w.extractLsb' 0 32

/-- `mask = operand[W-1:0]` (30_encoding.md R85). -/
def maskField (c : Cfg) (w : StimulusWord) : Word := w.extractLsb' 0 maxWordBits &&& c.wordMask

/-- `raw = operand & PAYLOAD_MASK[s]` (30_encoding.md R85, 42_config_operations.md R153, R157). DESIGN CHOICE: R85 also writes
it `operand[16:0]`, the same bits in the reference layout; for a mask with a bit above 16 the mask decides (log entry 27). -/
def rawField (c : Cfg) (s : Slot) (w : StimulusWord) : Word := w.extractLsb' 0 maxWordBits &&& c.payloadMask.get s

/-- One row of the opcode map: the opcode and the operands it takes from a word. -/
structure OpcodeRow where
  opcode : BitVec 8
  operands : StimulusWord → Instr

/-- The opcode map of 30_encoding.md R83, each row with its operand assembly of R85; the bits a row does not name are
ignored (R88 b). The widths of `rx` and `mask` are the configuration's (log entry 2), and that of `raw` is its payload mask's
(DESIGN CHOICE, log entry 27). -/
def opcodeMap (c : Cfg) : List OpcodeRow :=
  [ ⟨0x01, fun w => .init (operandField w).toNat⟩,
    ⟨0x02, fun w => .spin ((operandField w).getLsbD 0)⟩,
    ⟨0x03, fun _ => .forceOff⟩,
    ⟨0x10, fun w => .setMicrostepping (drvField w) ((operandField w).extractLsb' 0 8).toNat ((operandField w).getLsbD 8)⟩,
    ⟨0x11, fun w => .setCurrent (drvField w) (operandField w).toNat⟩,
    ⟨0x12, fun w => .setChopperConfig (drvField w) (rawField c .chopperControl w)⟩,
    ⟨0x13, fun w => .enable (drvField w) ((operandField w).getLsbD 0)⟩,
    ⟨0x14, fun w => .setStallThreshold (drvField w) (operandField w).toInt⟩,
    ⟨0x15, fun w => .setStallFilter (drvField w) ((operandField w).getLsbD 0)⟩,
    ⟨0x16, fun w => .setCoolStepConfig (drvField w) (rawField c .smartEnable w)⟩,
    ⟨0x17, fun w => .setStallMinStepsPerSecond (drvField w) (operandField w).toNat⟩,
    ⟨0x20, fun w => .getMicrostepping (drvField w)⟩,
    ⟨0x21, fun w => .getChopperConfig (drvField w)⟩,
    ⟨0x22, fun w => .isEnabled (drvField w)⟩,
    ⟨0x23, fun w => .readLiveStatus (drvField w)⟩,
    ⟨0x24, fun w => .readAccumulatedStatus (drvField w) (maskField c w)⟩,
    ⟨0x30, fun w => .appendStatusReport (drvField w)⟩,
    ⟨0x31, fun w => .appendStallConfig (drvField w)⟩,
    ⟨0xC0, fun w => .complete (rxField c w) (ivField w)⟩ ]

/-- The decoder: total on every 64-bit word; a reserved opcode is rejected by name (30_encoding.md R88). -/
def decode (c : Cfg) (w : StimulusWord) : Except DecodeError Instr :=
  match (opcodeMap c).find? fun r => r.opcode == opcodeField w with
  | some r => .ok (r.operands w)
  | none => .error (.reservedOpcode (opcodeField w))

/-- The instruction read from an instruction whose bits are `w`, `nbits` of them, every bit above being 0: the block's
words are 64 bits long, so the first word is the whole instruction. The field widths are the reference configuration's, which
is State.reset's (log entries 1 and 25). -/
def decodeTableWord (nbits w : Nat) : Option Instr :=
  match decode Cfg.reference (BitVec.ofNat 64 (w % 2 ^ nbits)) with
  | .ok i => some i
  | .error _ => none

/-- A word of format C; an encoder writes 0 in the reserved bits (30_encoding.md R81). -/
def commandWord (opcode : BitVec 8) (d : Nat) (operand : BitVec 32) : StimulusWord :=
  opcode ++ BitVec.ofNat 8 d ++ 0#16 ++ operand

/-- A word of format E; the reserved bits above the `W` bits of `rx` are 0 (30_encoding.md R84). -/
def eventWord (rx : Word) (iv : BitVec 32) : StimulusWord :=
  0xC0#8 ++ rx ++ iv

/-- An operand that is one bit, `operand[0]`. -/
def bitOperand (b : Bool) : BitVec 32 := (BitVec.ofBool b).setWidth 32

/-- The encoder: the word of a well-formed instruction, unused operand bits 0 (30_encoding.md R81, R83 to R85). -/
def encode : Instr → StimulusWord
  | .init count => commandWord 0x01 0 (BitVec.ofNat 32 count)
  | .spin powered => commandWord 0x02 0 (bitOperand powered)
  | .forceOff => commandWord 0x03 0 0
  | .setMicrostepping d shift interp => commandWord 0x10 d (0#23 ++ BitVec.ofBool interp ++ BitVec.ofNat 8 shift)
  | .setCurrent d current => commandWord 0x11 d (BitVec.ofNat 32 current)
  | .setChopperConfig d raw => commandWord 0x12 d (raw.setWidth 32)
  | .enable d on => commandWord 0x13 d (bitOperand on)
  | .setStallThreshold d v => commandWord 0x14 d (BitVec.ofInt 32 v)
  | .setStallFilter d on => commandWord 0x15 d (bitOperand on)
  | .setCoolStepConfig d raw => commandWord 0x16 d (raw.setWidth 32)
  | .setStallMinStepsPerSecond d rate => commandWord 0x17 d (BitVec.ofNat 32 rate)
  | .getMicrostepping d => commandWord 0x20 d 0
  | .getChopperConfig d => commandWord 0x21 d 0
  | .isEnabled d => commandWord 0x22 d 0
  | .readLiveStatus d => commandWord 0x23 d 0
  | .readAccumulatedStatus d mask => commandWord 0x24 d (mask.setWidth 32)
  | .appendStatusReport d => commandWord 0x30 d 0
  | .appendStallConfig d => commandWord 0x31 d 0
  | .complete rx iv => eventWord rx iv

end Sys2Proof
end

