-- ==== Sys2Proof/Machine/Flags.lean ====
section
/-! DEFINITION. Everything that reads or makes the bits of a status word: the noise gate, the stall bit, the live
view, the load window, the flags and the item precedence of the text layer (41_status_accumulator.md, 30_encoding.md R96). -/

namespace Sys2Proof

/-- `GATE(iv, m)`, the noise gate: true when the stall reading is valid; unsigned, no hysteresis, no memory
(41_status_accumulator.md R131). -/
def stallGate (iv m : BitVec 32) : Bool :=
  decide (iv ≠ 0) && decide (iv ≤ m)

/-- `w.SG <- 0`. -/
def Cfg.clearStall (c : Cfg) (w : Word) : Word :=
  c.statusLayout.sg.set w 0

/-- The filtered word: the stall bit cleared unless the gate passes, every other bit as received
(41_status_accumulator.md R132). -/
def Cfg.filterStatus (c : Cfg) (gatePasses : Bool) (rx : Word) : Word :=
  if gatePasses then rx else c.clearStall rx

/-- The live view: the stall bit of a disabled driver is suppressed at the read (41_status_accumulator.md R133,
90_conflicts.md C3). -/
def Cfg.liveView (c : Cfg) (en : Bool) (live : Word) : Word :=
  if en then live else c.clearStall live

/-- `w.LOAD`, the raw load reading of a status word (30_encoding.md R96). -/
def Cfg.loadOf (c : Cfg) (w : Word) : Load :=
  BitVec.ofNat maxWordBits (c.statusLayout.load.get w)

/-- The lower end of the empty load window, `2^LoadBits - 1` (10_state.md R29). -/
def Cfg.emptyMinLoad (c : Cfg) : Load := BitVec.ofNat maxWordBits (2 ^ c.loadBits - 1)

/-- The upper end of the empty load window (10_state.md R29). -/
def emptyMaxLoad : Load := 0

/-- `min_load` after a reading that passed the gate (41_status_accumulator.md R132). -/
def lowerLoad (minLoad l : Load) : Load :=
  if l < minLoad then l else minLoad

/-- `max_load` after a reading that passed the gate (41_status_accumulator.md R132). -/
def upperLoad (maxLoad l : Load) : Load :=
  if maxLoad < l then l else maxLoad

/-- The field that holds a flag (30_encoding.md R96). -/
def StatusLayout.flagField (l : StatusLayout) : StatusFlag → Field
  | .sg => l.sg
  | .ot => l.ot
  | .otpw => l.otpw
  | .s2g => l.s2g
  | .ola => l.ola
  | .olb => l.olb
  | .stst => l.stst

/-- Whether a flag is set in a status word; short-to-ground is one fault, any bit set (30_encoding.md R96). -/
def Cfg.flagSet (c : Cfg) (f : StatusFlag) (v : Word) : Bool :=
  (c.statusLayout.flagField f).get v != 0

/-- The flags in the order of 30_encoding.md R96. -/
def StatusFlag.all : List StatusFlag :=
  [.sg, .ot, .otpw, .s2g, .ola, .olb, .stst]

/-- `FLAG_MASK`, the set of the flag bits (30_encoding.md R96). -/
def Cfg.flagMask (c : Cfg) : Word :=
  StatusFlag.all.foldl (fun m f => m ||| (c.statusLayout.flagField f).mask) 0

/-- `flags(v)`: the flags set in a status word. -/
def Cfg.flags (c : Cfg) (v : Word) : List StatusFlag :=
  StatusFlag.all.filter fun f => c.flagSet f v

/-- `ITEMS(v)`, the item precedence a text layer must use: standstill hides the benign flags
(41_status_accumulator.md R138; log entry 24). No state and no response depends on it. -/
def Cfg.statusItems (c : Cfg) (v : Word) : List StatusFlag :=
  StatusFlag.all.filter fun f =>
    c.flagSet f v && (!(c.flagSet .stst v && c.benign.contains f) || f == .stst)

end Sys2Proof
end

