-- ==== Sys2Proof/Machine/State.lean ====
section
/-! DEFINITION. The state of the block as plain data (10_state.md), the reasons a step can stop, and the machine
right after reset. -/

namespace Sys2Proof.Machine

/-- The per-driver record (10_state.md R20 to R29). -/
structure Driver where
  /-- the five register slots; `chopperControl` is the effective chopper value (R21, R25) -/
  reg : Slots Word
  /-- the pending bitmap (R23) -/
  pend : Pending
  /-- the enable flag (R24) -/
  en : Bool
  /-- the configured chopper value (R25) -/
  chopCfg : Word
  /-- log2 of the microstep multiplier, 0..8 (R26) -/
  mshift : BitVec 4
  /-- the interpolation setting (R26) -/
  interp : Bool
  /-- the maximum stall step interval, in ticks (R27) -/
  maxIv : BitVec 32
  /-- the most recent filtered status word (R28) -/
  live : Word
  /-- the sticky OR of the filtered words (R28) -/
  acc : Word
  /-- the running minimum of the load readings (R29) -/
  minLoad : Load
  /-- the running maximum of the load readings (R29) -/
  maxLoad : Load
deriving DecidableEq, Repr

/-- What a transfer sends: the slot it was taken from, or a status-only poll (20_memory.md R62). -/
inductive TxKind where
  | slot (s : Slot)
  | poll
deriving DecidableEq, Repr

/-- One entry of the bus trace (20_memory.md R62). -/
inductive BusEvent where
  /-- START sent `word` to driver `d` -/
  | tx (d : Nat) (kind : TxKind) (word : Word)
  /-- a powered COMPLETE for driver `d` -/
  | rx (d : Nat) (rx : Word) (iv : BitVec 32)
  /-- an unpowered COMPLETE for driver `d` -/
  | halt (d : Nat)
deriving DecidableEq, Repr

/-- One action on the ports of 60_exceptions.md R205 (00_scope.md R11 `BusStart`, `BusEnd`, `GetStepInterval`). -/
inductive PortAction where
  /-- `Init`: a select signal configured, released (43_power_control.md R180) -/
  | selectConfigured (signal : Nat)
  /-- `BusStart`: the select signal asserted and the word sent -/
  | busStart (signal : Nat) (word : Word)
  /-- `BusEnd`: the select signal released -/
  | busEnd (signal : Nat)
  /-- the motion query and its answer -/
  | stepIntervalQuery (axis : Nat) (shift : BitVec 4) (answer : BitVec 32)
deriving DecidableEq, Repr

/-- The response of a command (30_encoding.md R86). -/
structure Response where
  ok : Bool
  val : BitVec 64
deriving DecidableEq, Repr

/-- One event at the block's boundary: a 64-bit word (30_encoding.md R80), the `force_off` strobe
(43_power_control.md R182, 60_exceptions.md R205; log entry 9), or the reset input (70_reset_and_hazards.md R220, R221;
log entry 26). -/
inductive Stimulus where
  | word (w : StimulusWord)
  | forceOffStrobe
  | resetInput
deriving DecidableEq, Repr

/-- The whole machine (10_state.md R20, R30 to R33), with the configuration it is parameterised by and the model's own
input and output fields (log entries 1, 4 and 6). -/
structure State where
  /-- the parameter `Cfg`; nothing writes it (00_scope.md R5, 10_state.md R38) -/
  cfg : Cfg
  /-- `N`, the driver count (R31) -/
  n : Nat
  /-- `inited` (R31) -/
  inited : Bool
  /-- `powered` (R32) -/
  powered : Bool
  /-- `cur`, the driver that owns the bus (R30) -/
  cur : Option Nat
  /-- `irq_en`, the completion-interrupt enable (R33) -/
  irqEn : Bool
  /-- the per-driver records, `MaxDrivers` of them (R20) -/
  drivers : List Driver
  /-- MODEL: the stimuli not yet taken, in the order they are taken -/
  inputs : List Stimulus
  /-- MODEL: the response made by the last step -/
  resp : Option Response
  /-- MODEL: the bus trace, oldest first (20_memory.md R62) -/
  trace : List BusEvent
  /-- MODEL: the port actions, oldest first (60_exceptions.md R205) -/
  ports : List PortAction
deriving DecidableEq, Repr

/-- Why the machine stops. The block itself raises no exception (60_exceptions.md R190). -/
inductive Fault where
  /-- A COMPLETE while no transfer is in flight or the completion interrupt is disabled: the event is not enabled and
  has no step (30_encoding.md R88 d, 93_implementation_defined.md U6). Raised by COMPLETE only. Safe: the hardware cannot take the
  event, and the model gives it no meaning. -/
  | completeNotEnabled
deriving DecidableEq, Repr

/-- Why an operation has no meaning. -/
inductive Refusal where
  /-- An operation without a meaning in this model; raised by no arm of `exec` today. Safe: nothing follows from it. -/
  | notModelled (mnemonic : String)
deriving DecidableEq, Repr

/-- A per-driver record before `Init`: every value 0. The spec leaves it unspecified and unobservable (10_state.md R37;
DESIGN CHOICE, unsafe, log entry 3). -/
def Driver.blank : Driver where
  reg := ⟨0, 0, 0, 0, 0⟩
  pend := 0
  en := false
  chopCfg := 0
  mshift := 0
  interp := false
  maxIv := 0
  live := 0
  acc := 0
  minLoad := 0
  maxLoad := 0

/-- The power-on reset state of a block with configuration `c` (10_state.md R37, 70_reset_and_hazards.md R220). -/
def State.powerOn (c : Cfg) : State where
  cfg := c
  n := 0
  inited := false
  powered := false
  cur := none
  irqEn := false
  drivers := List.replicate c.maxDrivers Driver.blank
  inputs := []
  resp := none
  trace := []
  ports := []

/-- The machine right after reset, in the reference configuration (log entry 1). -/
def State.reset : State := State.powerOn Cfg.reference

end Sys2Proof.Machine
end

