-- ==== Sys2Proof/Machine/Ops.lean ====
section
/-! DEFINITION. The named operations over the state that the meanings share: the per-driver records, the response and
`fail` (the block's only "exception", 60_exceptions.md R190), the index check, the setter form, the micro-operations START
and ACCUMULATE, and taking the next stimulus. -/

namespace Sys2Proof.Machine

/-- The three outcomes of an operation. -/
abbrev Result := Host.Outcome State Fault Refusal

/-! ### The per-driver records -/

/-- The record of driver `d`, by position (20_memory.md R61). No rule reads a record that does not exist (10_state.md R36;
log entry 12). -/
def State.driver (s : State) (d : Nat) : Driver :=
  s.drivers.getD d Driver.blank

/-- The record of driver `d` replaced by `f` of it; no other record changes. -/
def State.updateDriver (s : State) (d : Nat) (f : Driver → Driver) : State :=
  { s with drivers := s.drivers.modify d f }

/-- "For every `d` in range": the records `0 .. n-1` replaced by `f` of each in one atomic step (00_scope.md R12). -/
def State.updateFirst (s : State) (n : Nat) (f : Driver → Driver) : State :=
  { s with drivers := (s.drivers.take n).map f ++ s.drivers.drop n }

/-- A slot written; nothing else of the record changes. -/
def Driver.writeSlot (r : Driver) (s : Slot) (w : Word) : Driver :=
  { r with reg := r.reg.set s w }

/-- `pend[d][s] <- 1` (20_memory.md R72 a). -/
def Driver.markPending (r : Driver) (s : Slot) : Driver :=
  { r with pend := Pending.mark r.pend s }

/-- `pend[d][s] <- 0` (20_memory.md R72 b). -/
def Driver.clearPending (r : Driver) (s : Slot) : Driver :=
  { r with pend := Pending.unmark r.pend s }

/-- The full resync of one driver: all five bits (43_power_control.md R181). -/
def Driver.resync (r : Driver) : Driver :=
  { r with pend := Pending.full }

/-- Slot 2 regenerated from the configured value and the enable flag (42_config_operations.md R153, R154). -/
def Driver.regenerateChopper (c : Cfg) (r : Driver) : Driver :=
  r.writeSlot .chopperControl (c.effectiveChop r.en r.chopCfg)

/-- The load window reopened to empty (10_state.md R29, 41_status_accumulator.md R136). -/
def Driver.emptyWindow (c : Cfg) (r : Driver) : Driver :=
  { r with minLoad := c.emptyMinLoad, maxLoad := emptyMaxLoad }

/-- The record `Init` installs in every driver in range (43_power_control.md R180, 10_state.md R37). -/
def initialDriver (c : Cfg) : Driver where
  reg := c.defaults.set .chopperControl (c.effectiveChop false c.defaults.chopperControl)
  pend := Pending.full
  en := false
  chopCfg := c.defaults.chopperControl
  mshift := BitVec.ofNat 4 c.defaultShift
  interp := c.defaultInterp
  maxIv := c.maxInterval c.defaultMinSps
  live := 0
  acc := 0
  minLoad := c.emptyMinLoad
  maxLoad := emptyMaxLoad

/-! ### Responses -/

/-- `respond(ok, val)` (30_encoding.md R86). -/
def State.respond (s : State) (ok : Bool) (val : BitVec 64) : State :=
  { s with resp := some ⟨ok, val⟩ }

/-- `fail`: `respond(0, 0)` with no state written, whatever the cause (00_scope.md R11, 60_exceptions.md R190, R191). -/
def State.fail (s : State) : State :=
  s.respond false 0

/-- A step that makes no response (30_encoding.md R86: `COMPLETE`). -/
def State.noResponse (s : State) : State :=
  { s with resp := none }

/-- The index check of every indexed command: out of range is `fail`, before any operand is looked at
(42_config_operations.md R150). -/
def indexed (d : Nat) (s : State) (k : State → State) : Result :=
  if d < s.n then .next (k s) else .next s.fail

/-- A slot of driver `d` configured: the value and its mirrors first, then the pending bit, then success
(42_config_operations.md R159). -/
def State.configureSlot (s : State) (d : Nat) (slot : Slot) (f : Driver → Driver) : State :=
  (s.updateDriver d fun r => (f r).markPending slot).respond true 0

/-- The form of a setter of slot `slot` that accepts every operand (42_config_operations.md R150, R159). -/
def setSlot (d : Nat) (slot : Slot) (s : State) (f : Driver → Driver) : Result :=
  indexed d s fun s => s.configureSlot d slot f

/-- The form of a read without side effect: the value of driver `d`'s record, no state written (20_memory.md R66). -/
def readDriver (d : Nat) (s : State) (value : Driver → BitVec 64) : Result :=
  indexed d s fun s => s.respond true (value (s.driver d))

/-! ### The bus trace and the ports -/

/-- An entry at the end of the bus trace (20_memory.md R62). -/
def State.record (s : State) (e : BusEvent) : State :=
  { s with trace := s.trace ++ [e] }

/-- A port action after the earlier ones (60_exceptions.md R205). -/
def State.emit (s : State) (a : PortAction) : State :=
  { s with ports := s.ports ++ [a] }

/-- `BusStart(d, word)`: the select signal of `d` asserted and `word` sent, recorded as TX (00_scope.md R11). -/
def State.busStart (s : State) (d : Nat) (kind : TxKind) (word : Word) : State :=
  (s.emit (.busStart (s.cfg.select d) word)).record (.tx d kind word)

/-- `BusEnd(d)`: the select signal of `d` released (00_scope.md R11). -/
def State.busEnd (s : State) (d : Nat) : State :=
  s.emit (.busEnd (s.cfg.select d))

/-! ### The micro-operations -/

/-- What START sends for a record and what it leaves of it: the lowest-indexed pending slot with its bit cleared, or, if
nothing is pending, the `SmartEnable` value as a poll (40_transfer_scheduler.md R111). -/
def Driver.nextTransfer (r : Driver) : TxKind × Word × Driver :=
  match Pending.lowestSet r.pend with
  | some sl => (.slot sl, r.reg.get sl, r.clearPending sl)
  | none => (.poll, r.reg.smartEnable, r)

/-- `START(d)`: begin one transfer to driver `d`; neither `en[d]` nor `powered` is looked at
(40_transfer_scheduler.md R111). -/
def startTransfer (d : Nat) (s : State) : State :=
  let next := (s.driver d).nextTransfer
  let s := { s.updateDriver d (fun _ => next.2.2) with cur := some d }
  s.busStart d next.1 next.2.1

/-- What ACCUMULATE leaves of a record: the load window if the gate passes, the filtered word into `live` and ORed into `acc`
(41_status_accumulator.md R132). `en` is not consulted. -/
def Driver.accumulate (c : Cfg) (rx : Word) (iv : BitVec 32) (r : Driver) : Driver :=
  let passes := stallGate iv r.maxIv
  let w := c.filterStatus passes rx
  { r with
    minLoad := if passes then lowerLoad r.minLoad (c.loadOf rx) else r.minLoad
    maxLoad := if passes then upperLoad r.maxLoad (c.loadOf rx) else r.maxLoad
    live := w
    acc := r.acc ||| w }

/-- `ACCUMULATE(d, rx, iv)`: the one motion query, for `d`'s axis with `d`'s microstep shift, then the merge of the word received
(41_status_accumulator.md R130, R132). -/
def accumulate (d : Nat) (rx : Word) (iv : BitVec 32) (s : State) : State :=
  ((s.emit (.stepIntervalQuery (s.cfg.axis d) (s.driver d).mshift iv)).updateDriver d
    (Driver.accumulate s.cfg rx iv)).record (.rx d rx iv)

/-- The powered branch of the completion handler: accumulate, then start the next driver's transfer, wrapping at `N`
(40_transfer_scheduler.md R113, R114 advance). -/
def advanceChain (d : Nat) (rx : Word) (iv : BitVec 32) (s : State) : State :=
  startTransfer ((d + 1) % s.n) (accumulate d rx iv s)

/-- The unpowered branch of the completion handler: the chain stops, the word received is discarded, Motion is not asked
(40_transfer_scheduler.md R113, R114 stop). -/
def haltChain (d : Nat) (s : State) : State :=
  { s with cur := none, irqEn := false }.record (.halt d)

/-! ### Taking the next stimulus -/

/-- The next stimulus in the order they are taken, and the state with it taken (20_memory.md R67; log entry 4). -/
def State.takeInput (s : State) : Option (Stimulus × State) :=
  match s.inputs with
  | [] => none
  | i :: rest => some (i, { s with inputs := rest })

/-- A step with nothing to take: the block does nothing and makes no response (70_reset_and_hazards.md R220; log entry 5). -/
def State.idle (s : State) : State :=
  s.noResponse

/-- The reset input: every field of the block's state as power-on reset leaves it, at any time
(70_reset_and_hazards.md R220, R221; log entry 26). What was recorded and what is still to come stay. -/
def State.resetByInput (s : State) : State :=
  { State.powerOn s.cfg with inputs := s.inputs, trace := s.trace, ports := s.ports }

/-- A word with a reserved opcode on the command port: `fail`, no state change (30_encoding.md R88 a, 60_exceptions.md R191 F6). -/
def State.reservedOpcode (s : State) : State :=
  s.fail

end Sys2Proof.Machine
end

