-- ==== Sys2Proof/Machine/ConfigOps.lean ====
section
/-! DEFINITION. The meanings of the per-driver configuration operations: eight setters and three getters
(42_config_operations.md). -/

namespace Sys2Proof.Machine

/-- The microstep setting and its mirrors in slot 0 (42_config_operations.md R151, 10_state.md R26). -/
def Driver.setMicrostepping (c : Cfg) (shift : Nat) (interp : Bool) (r : Driver) : Driver :=
  let w := c.slotLayout.mres.set r.reg.driveControl (c.mresCode shift)
  { r.writeSlot .driveControl (c.slotLayout.intpol.set w interp.toNat) with
    mshift := BitVec.ofNat 4 shift
    interp := interp }

/-- `SetMicrostepping d, shift, interp`: a shift above 8 fails (42_config_operations.md R151, R163). -/
def execSetMicrostepping (d shift : Nat) (interp : Bool) (s : State) : Result :=
  indexed d s fun s =>
    if maxShift < shift then s.fail
    else s.configureSlot d .driveControl (Driver.setMicrostepping s.cfg shift interp)

/-- One field of slot 1 written, the others preserved (42_config_operations.md R152, R155, R156). -/
def Driver.writeStallGuard (f : Field) (v : Nat) (r : Driver) : Driver :=
  r.writeSlot .stallGuardConfig (f.set r.reg.stallGuardConfig v)

/-- `SetCurrent d, current`: clamp, convert, write `CS` (42_config_operations.md R152). -/
def execSetCurrent (d current : Nat) (s : State) : Result :=
  setSlot d .stallGuardConfig s
    (Driver.writeStallGuard s.cfg.slotLayout.cs (s.cfg.currentCode (s.cfg.clampCurrent current)))

/-- `chop_cfg[d] <- x` and the effective value regenerated (42_config_operations.md R153). -/
def Driver.setChopper (c : Cfg) (x : Word) (r : Driver) : Driver :=
  Driver.regenerateChopper c { r with chopCfg := x }

/-- `SetChopperConfig d, raw`: an off-time of 0, or of 1 with blanking-time 0, fails (42_config_operations.md R153, R163). -/
def execSetChopperConfig (d : Nat) (raw : Word) (s : State) : Result :=
  indexed d s fun s =>
    let x := s.cfg.slotWord .chopperControl raw
    if s.cfg.chopValid x then s.configureSlot d .chopperControl (Driver.setChopper s.cfg x) else s.fail

/-- A real transition of the enable flag: on enable the stale stall bits are cleared from both views, then the effective
chopper value is regenerated (42_config_operations.md R154). -/
def Driver.setEnable (c : Cfg) (on : Bool) (r : Driver) : Driver :=
  Driver.regenerateChopper c
    { r with
      en := on
      live := if on then c.clearStall r.live else r.live
      acc := if on then c.clearStall r.acc else r.acc }

/-- `Enable d, on`: no change of state writes nothing and marks nothing (42_config_operations.md R154, R159). -/
def execEnable (d : Nat) (on : Bool) (s : State) : Result :=
  indexed d s fun s =>
    if (s.driver d).en = on then s.respond true 0
    else s.configureSlot d .chopperControl (Driver.setEnable s.cfg on)

/-- `SetStallThreshold d, v`: clamp to [-64, 63], store in 7 bits (42_config_operations.md R155). -/
def execSetStallThreshold (d : Nat) (v : Int) (s : State) : Result :=
  setSlot d .stallGuardConfig s (Driver.writeStallGuard s.cfg.slotLayout.sgt (stallThresholdCode v))

/-- `SetStallFilter d, on` (42_config_operations.md R156). -/
def execSetStallFilter (d : Nat) (on : Bool) (s : State) : Result :=
  setSlot d .stallGuardConfig s (Driver.writeStallGuard s.cfg.slotLayout.sfilt on.toNat)

/-- `SetCoolStepConfig d, raw`: an unvalidated raw passthrough (42_config_operations.md R157). -/
def execSetCoolStepConfig (d : Nat) (raw : Word) (s : State) : Result :=
  setSlot d .smartEnable s fun r => r.writeSlot .smartEnable (s.cfg.slotWord .smartEnable raw)

/-- `SetStallMinStepsPerSecond d, rate`: no slot and no pending bit (42_config_operations.md R158). -/
def execSetStallMinStepsPerSecond (d rate : Nat) (s : State) : Result :=
  indexed d s fun s =>
    (s.updateDriver d fun r => { r with maxIv := s.cfg.maxInterval rate }).respond true 0

/-- `GetMicrostepping d` (42_config_operations.md R160). -/
def execGetMicrostepping (d : Nat) (s : State) : Result :=
  readDriver d s fun r => microsteppingValue r.mshift r.interp

/-- `GetChopperConfig d`: the configured value, never the effective one (42_config_operations.md R161). -/
def execGetChopperConfig (d : Nat) (s : State) : Result :=
  readDriver d s fun r => r.chopCfg.setWidth 64

/-- `IsEnabled d` (42_config_operations.md R162). -/
def execIsEnabled (d : Nat) (s : State) : Result :=
  readDriver d s fun r => (BitVec.ofBool r.en).setWidth 64

end Sys2Proof.Machine
end

