-- ==== Sys2Proof/Machine/PowerOps.lean ====
section
/-! DEFINITION. The meanings of the global operations and the power controller: `Init`, `Spin`, `ForceOff`
(43_power_control.md). -/

namespace Sys2Proof.Machine

/-- The select signals of the drivers in range, configured and released by `Init` (43_power_control.md R180). -/
def selectsConfigured (c : Cfg) (n : Nat) : List PortAction :=
  (List.range n).map fun d => .selectConfigured (c.select d)

/-- The body of the first `Init` (43_power_control.md R180). -/
def State.initialise (s : State) (count : Nat) : State :=
  let n := min count s.cfg.maxDrivers
  { s.updateFirst n (fun _ => initialDriver s.cfg) with
    n := n
    inited := true
    powered := false
    cur := none
    irqEn := false
    ports := s.ports ++ selectsConfigured s.cfg n }.respond true (BitVec.ofNat 64 n)

/-- `Init count`; every `Init` after the first is `fail` (43_power_control.md R180, decision D23). -/
def execInit (count : Nat) (s : State) : Result :=
  if s.inited then .next s.fail else .next (s.initialise count)

/-- Power restored: full resync of every driver in range, and the chain started at driver 0 if it is idle
(43_power_control.md R181). -/
def State.powerRestored (s : State) : State :=
  let s := { s.updateFirst s.n Driver.resync with powered := true }
  if s.cur.isNone && decide (0 < s.n) then startTransfer 0 { s with irqEn := true } else s

/-- Power lost: the flag only; a transfer in flight goes on (43_power_control.md R181 corner case b, R182). -/
def State.powerLost (s : State) : State :=
  { s with powered := false }

/-- `Spin p`: `p = powered` does nothing (43_power_control.md R181). -/
def execSpin (p : Bool) (s : State) : Result :=
  if p && !s.powered then .next (s.powerRestored.respond true 0)
  else if !p && s.powered then .next (s.powerLost.respond true 0)
  else .next (s.respond true 0)

/-- `ForceOff`: one write of one bit (43_power_control.md R182). -/
def execForceOff (s : State) : Result :=
  .next (s.powerLost.respond true 0)

/-- The states of the power state machine (43_power_control.md R183). -/
inductive PowerState where
  | offIdle
  | onRunning
  | offDraining
  /-- powered with no transfer in flight: reachable only with `N = 0` -/
  | onStopped
deriving DecidableEq, Repr

/-- The state of the pair (`powered`, `cur`) (43_power_control.md R183). -/
def State.powerState (s : State) : PowerState :=
  match s.powered, s.cur with
  | false, none => .offIdle
  | true, some _ => .onRunning
  | false, some _ => .offDraining
  | true, none => .onStopped

end Sys2Proof.Machine
end

