-- ==== Sys2Proof/Machine/Scheduler.lean ====
section
/-! DEFINITION. The meaning of the completion event, the block's interrupt handler (40_transfer_scheduler.md R113,
60_exceptions.md R192 to R194). -/

namespace Sys2Proof.Machine

/-- The completion handler for the driver that owned the bus: the select released, then `powered` checked at the top
(40_transfer_scheduler.md R113). -/
def completionHandler (d : Nat) (rx : Word) (iv : BitVec 32) (s : State) : State :=
  let released := s.busEnd d
  (if s.powered then advanceChain d rx iv released else haltChain d released).noResponse

/-- `COMPLETE(rx, iv)`: enabled only while a transfer is in flight and the completion interrupt is enabled; otherwise the
event has no step (40_transfer_scheduler.md R113, 30_encoding.md R88 d; log entry 7). -/
def execComplete (rx : Word) (iv : BitVec 32) (s : State) : Result :=
  match s.cur with
  | some d => if s.irqEn then .next (completionHandler d rx iv s) else .fault .completeNotEnabled
  | none => .fault .completeNotEnabled

end Sys2Proof.Machine
end

