-- ==== Sys2Proof/Machine/StatusOps.lean ====
section
/-! DEFINITION. The meanings of the status reads and the diagnostic reports (41_status_accumulator.md). -/

namespace Sys2Proof.Machine

/-- `ReadLiveStatus d`: the live view, nothing written (41_status_accumulator.md R133). -/
def execReadLiveStatus (d : Nat) (s : State) : Result :=
  readDriver d s fun r => (s.cfg.liveView r.en r.live).setWidth 64

/-- `ReadAccumulatedStatus d, mask`: the word before the clear; the bits not in the retain-mask are cleared
(41_status_accumulator.md R134, 90_conflicts.md C1). -/
def execReadAccumulatedStatus (d : Nat) (mask : Word) (s : State) : Result :=
  indexed d s fun s =>
    (s.updateDriver d fun r => { r with acc := r.acc &&& mask }).respond true ((s.driver d).acc.setWidth 64)

/-- The status report of a record (41_status_accumulator.md R136). -/
def Driver.statusReport (c : Cfg) (r : Driver) : BitVec 64 :=
  c.statusReportValue (c.liveView r.en r.live) r.minLoad r.maxLoad

/-- `AppendStatusReport d`: the live view and the load window as they were, then the window reopened
(41_status_accumulator.md R136). -/
def execAppendStatusReport (d : Nat) (s : State) : Result :=
  indexed d s fun s =>
    (s.updateDriver d (Driver.emptyWindow s.cfg)).respond true ((s.driver d).statusReport s.cfg)

/-- `AppendStallConfig d` (41_status_accumulator.md R137). -/
def execAppendStallConfig (d : Nat) (s : State) : Result :=
  readDriver d s fun r => s.cfg.stallConfigValue r.reg.stallGuardConfig r.reg.smartEnable r.maxIv

end Sys2Proof.Machine
end

