-- ==== Sys2Proof/Machine/Dispatch.lean ====
section
/-! DEFINITION. One arm per operation: the meaning it calls. -/

namespace Sys2Proof.Machine

-- spec/opcode_table.json, in the table's order.
def exec (i : Instr) (s : State) : Host.Outcome State Fault Refusal :=
  match i with
  | .init count => Sys2Proof.Machine.execInit count s
  | .spin powered => Sys2Proof.Machine.execSpin powered s
  | .forceOff => Sys2Proof.Machine.execForceOff s
  | .setMicrostepping d shift interp => Sys2Proof.Machine.execSetMicrostepping d shift interp s
  | .setCurrent d current => Sys2Proof.Machine.execSetCurrent d current s
  | .setChopperConfig d raw => Sys2Proof.Machine.execSetChopperConfig d raw s
  | .enable d on => Sys2Proof.Machine.execEnable d on s
  | .setStallThreshold d v => Sys2Proof.Machine.execSetStallThreshold d v s
  | .setStallFilter d on => Sys2Proof.Machine.execSetStallFilter d on s
  | .setCoolStepConfig d raw => Sys2Proof.Machine.execSetCoolStepConfig d raw s
  | .setStallMinStepsPerSecond d rate => Sys2Proof.Machine.execSetStallMinStepsPerSecond d rate s
  | .getMicrostepping d => Sys2Proof.Machine.execGetMicrostepping d s
  | .getChopperConfig d => Sys2Proof.Machine.execGetChopperConfig d s
  | .isEnabled d => Sys2Proof.Machine.execIsEnabled d s
  | .readLiveStatus d => Sys2Proof.Machine.execReadLiveStatus d s
  | .readAccumulatedStatus d mask => Sys2Proof.Machine.execReadAccumulatedStatus d mask s
  | .appendStatusReport d => Sys2Proof.Machine.execAppendStatusReport d s
  | .appendStallConfig d => Sys2Proof.Machine.execAppendStallConfig d s
  | .complete rx iv => Sys2Proof.Machine.execComplete rx iv s

end Sys2Proof.Machine
end

