-- ==== Sys2Proof/Machine/Step.lean ====
section
/-! DEFINITION. One step of the machine: it takes the next stimulus and processes it as one atomic transition
(00_scope.md R8, 20_memory.md R67). -/

namespace Sys2Proof.Machine

/-- One stimulus processed: a decoded word runs its operation, a reserved opcode is `fail` (30_encoding.md R88), the
`force_off` strobe is `ForceOff` (43_power_control.md R182), the reset input resets (70_reset_and_hazards.md R220). -/
def processStimulus (i : Stimulus) (s : State) : Host.Outcome State Fault Refusal :=
  match i with
  | .word w =>
    match decode s.cfg w with
    | .ok instr => exec instr s
    | .error _ => .next s.reservedOpcode
  | .forceOffStrobe => exec .forceOff s
  | .resetInput => .next s.resetByInput

/-- One step (00_scope.md R8); with nothing to take, the block does nothing (log entry 5). -/
def step (s : State) : Host.Outcome State Fault Refusal :=
  match s.takeInput with
  | some (i, s') => processStimulus i s'
  | none => .next s.idle

/-- The state in which the next stimulus taken is the word `w` (of `nbits` bits, every bit above 0), before those that were
waiting (log entry 4). -/
def State.withFetchWord (s : State) (nbits w : Nat) : State :=
  { s with inputs := .word (BitVec.ofNat 64 (w % 2 ^ nbits)) :: s.inputs }

end Sys2Proof.Machine
end

