-- ==== Sys2Proof/Machine/Failures.lean ====
section
/-! DEFINITION. The causes of `fail`, their names and the order of the checks (60_exceptions.md R191). No meaning reads
them: the response carries no cause code. -/

namespace Sys2Proof.Machine

/-- The causes F1 to F6 of 60_exceptions.md R191. -/
inductive FailCause where
  /-- F1 -/
  | indexOutOfRange
  /-- F2 -/
  | shiftOutOfRange
  /-- F3 -/
  | offTimeZero
  /-- F4 -/
  | offTimeOneBlankingZero
  /-- F5 -/
  | alreadyInitialised
  /-- F6 -/
  | reservedOpcode
deriving DecidableEq, Repr

/-- The operand validations F2 to F4, the only three (42_config_operations.md R163, 60_exceptions.md R191). -/
def operandFailCause (c : Cfg) : Instr → Option FailCause
  | .setMicrostepping _ shift _ => if maxShift < shift then some .shiftOutOfRange else none
  | .setChopperConfig _ raw =>
    let x := c.slotWord .chopperControl raw
    if c.slotLayout.toff.get x = 0 then some .offTimeZero
    else if c.slotLayout.toff.get x = 1 ∧ c.slotLayout.tbl.get x = 0 then some .offTimeOneBlankingZero
    else none
  | _ => none

/-- Why an operation fails, `none` if it does not: `Init` refusal, then the index, then the operand
(60_exceptions.md R191). -/
def failCause (i : Instr) (s : State) : Option FailCause :=
  match i, i.driverIndex with
  | .init _, _ => if s.inited then some .alreadyInitialised else none
  | _, none => none
  | i, some d => if s.n ≤ d then some .indexOutOfRange else operandFailCause s.cfg i

/-- Why a word on the command port fails: a reserved opcode first (60_exceptions.md R191). -/
def wordFailCause (w : StimulusWord) (s : State) : Option FailCause :=
  match decode s.cfg w with
  | .error _ => some .reservedOpcode
  | .ok i => failCause i s

end Sys2Proof.Machine
end

