-- ==== Sys2Proof/Machine/Ports.lean ====
section
/-! DEFINITION. The block's boundary: the outputs that are functions of the state (10_state.md R35), and the order in which
events that arrive together are taken (60_exceptions.md R198). -/

namespace Sys2Proof.Machine

/-- The select signal of driver `d`, asserted exactly while `cur = Some d` (10_state.md R35 a, 40_transfer_scheduler.md R115). -/
def State.selectAsserted (s : State) (d : Nat) : Bool :=
  s.cur == some d

/-- The physical select line `signal` under `SelectMap` (60_exceptions.md R205). -/
def State.selectLine (s : State) (signal : Nat) : Bool :=
  match s.cur with
  | some d => s.cfg.select d == signal
  | none => false

/-- The global enable output, asserted exactly while `powered = 1` (10_state.md R35 b, decision D22). -/
def State.drvEnable (s : State) : Bool :=
  s.powered

/-- COMPLETE can be taken (40_transfer_scheduler.md R113). -/
def State.completeEnabled (s : State) : Bool :=
  s.cur.isSome && s.irqEn

/-- No transfer is in flight (70_reset_and_hazards.md R223). -/
def State.quiescent (s : State) : Bool :=
  s.cur.isNone

/-- What arrives at the ports in one cycle of a cycle-based implementation (60_exceptions.md R198, R205). -/
structure PortCycle where
  forceOff : Bool
  completion : Option (Word × BitVec 32)
  command : Option StimulusWord
deriving DecidableEq, Repr

/-- The order in which one cycle's arrivals are taken: `force_off`, then the completion, then the command
(60_exceptions.md R198, decision D30). -/
def PortCycle.serialise (p : PortCycle) : List Stimulus :=
  (if p.forceOff then [.forceOffStrobe] else [])
    ++ (p.completion.map fun c => Stimulus.word (eventWord c.1 c.2)).toList
    ++ (p.command.map Stimulus.word).toList

end Sys2Proof.Machine
end

