-- ==== Sys2Proof/WellFormed.lean ====
section
/-! DEFINITION. Which operations an encoder can write (the ranges of 30_encoding.md R81, R85), and which
configurations are configurations of this hardware (the constraints of 00_scope.md R5). -/

namespace Sys2Proof

/-- `v` is a `W`-bit word (00_scope.md R5). -/
abbrev Cfg.FitsWord (c : Cfg) (v : Word) : Prop :=
  v &&& ~~~c.wordMask = 0

/-- Every operand fits the bits 30_encoding.md R81, R84 and R85 give it in configuration `c`. -/
def Instr.wf (c : Cfg) : Instr → Bool
  | .init count => decide (count < 2 ^ 32)
  | .spin _ => true
  | .forceOff => true
  | .setMicrostepping d shift _ => decide (d < 2 ^ 8) && decide (shift < 2 ^ 8)
  | .setCurrent d current => decide (d < 2 ^ 8) && decide (current < 2 ^ 32)
  | .setChopperConfig d raw => decide (d < 2 ^ 8) && raw &&& ~~~c.payloadMask.chopperControl == 0
  | .enable d _ => decide (d < 2 ^ 8)
  | .setStallThreshold d v => decide (d < 2 ^ 8) && decide (-(2 ^ 31) ≤ v) && decide (v < 2 ^ 31)
  | .setStallFilter d _ => decide (d < 2 ^ 8)
  | .setCoolStepConfig d raw => decide (d < 2 ^ 8) && raw &&& ~~~c.payloadMask.smartEnable == 0
  | .setStallMinStepsPerSecond d rate => decide (d < 2 ^ 8) && decide (rate < 2 ^ 32)
  | .getMicrostepping d => decide (d < 2 ^ 8)
  | .getChopperConfig d => decide (d < 2 ^ 8)
  | .isEnabled d => decide (d < 2 ^ 8)
  | .readLiveStatus d => decide (d < 2 ^ 8)
  | .readAccumulatedStatus d mask => decide (d < 2 ^ 8) && decide (c.FitsWord mask)
  | .appendStatusReport d => decide (d < 2 ^ 8)
  | .appendStallConfig d => decide (d < 2 ^ 8)
  | .complete rx _ => decide (c.FitsWord rx)

/-- A field that is not empty and lies inside the bits of `allowed` (00_scope.md R5). -/
def Field.Inside (f : Field) (allowed : Word) : Prop :=
  0 < f.width ∧ f.lo + f.width ≤ maxWordBits ∧ f.mask &&& ~~~allowed = 0

/-- Two fields with no common bit (00_scope.md R5). -/
def Field.Disjoint (f g : Field) : Prop :=
  f.mask &&& g.mask = 0

/-- The constraints on the field positions of the slots (00_scope.md R5). The flag fields `INTPOL` and `SFILT` are one bit
wide (30_encoding.md R91, R92; log entry 16). -/
structure SlotLayout.Valid (l : SlotLayout) (payload : Slots Word) : Prop where
  mres_inside : l.mres.Inside payload.driveControl
  intpol_inside : l.intpol.Inside payload.driveControl
  cs_inside : l.cs.Inside payload.stallGuardConfig
  sgt_inside : l.sgt.Inside payload.stallGuardConfig
  sfilt_inside : l.sfilt.Inside payload.stallGuardConfig
  toff_inside : l.toff.Inside payload.chopperControl
  tbl_inside : l.tbl.Inside payload.chopperControl
  rdsel_inside : l.rdsel.Inside payload.driveConfig
  vsense_inside : l.vsense.Inside payload.driveConfig
  mres_intpol : l.mres.Disjoint l.intpol
  cs_sgt : l.cs.Disjoint l.sgt
  cs_sfilt : l.cs.Disjoint l.sfilt
  sgt_sfilt : l.sgt.Disjoint l.sfilt
  toff_tbl : l.toff.Disjoint l.tbl
  rdsel_vsense : l.rdsel.Disjoint l.vsense
  sgt_width : l.sgt.width = 7
  intpol_width : l.intpol.width = 1
  sfilt_width : l.sfilt.width = 1

/-- The fields of a status word. -/
def StatusLayout.fields (l : StatusLayout) : List Field :=
  [l.sg, l.ot, l.otpw, l.s2g, l.ola, l.olb, l.stst, l.load]

/-- The constraints on the status-word fields (00_scope.md R5); the stall bit is one bit (30_encoding.md R96; log entry 16). -/
structure StatusLayout.Valid (l : StatusLayout) (c : Cfg) : Prop where
  inside : ∀ f ∈ l.fields, f.Inside c.wordMask
  disjoint : l.fields.Pairwise Field.Disjoint
  load_width : l.load.width = c.loadBits
  sg_width : l.sg.width = 1

/-- The constraints of 00_scope.md R5: a `Cfg` that breaks one is not a configuration of this hardware. -/
structure Cfg.Valid (c : Cfg) : Prop where
  maxDrivers_pos : 1 ≤ c.maxDrivers
  maxDrivers_le : c.maxDrivers ≤ 255
  wordBits_pos : 1 ≤ c.wordBits
  /-- 30_encoding.md R84 -/
  wordBits_le : c.wordBits ≤ maxWordBits
  loadBits_pos : 1 ≤ c.loadBits
  tag_fits : ∀ s : Slot, c.FitsWord (c.tag.get s)
  payload_fits : ∀ s : Slot, c.FitsWord (c.payloadMask.get s)
  tag_payload : ∀ s : Slot, c.tag.get s &&& c.payloadMask.get s = 0
  tags_distinguishable : ∀ s t : Slot, s ≠ t →
    (c.tag.get s ^^^ c.tag.get t) &&& ~~~c.payloadMask.get s &&& ~~~c.payloadMask.get t ≠ 0
  slotLayout : c.slotLayout.Valid c.payloadMask
  statusLayout : c.statusLayout.Valid c
  mresCodes_length : c.mresCodes.length = maxShift + 1
  mresCodes_nodup : c.mresCodes.Nodup
  mresCodes_fit : ∀ x ∈ c.mresCodes, x < 2 ^ c.slotLayout.mres.width
  defaults_tag : ∀ s : Slot, c.defaults.get s &&& ~~~c.payloadMask.get s = c.tag.get s
  defaults_chopper : c.chopValid c.defaults.chopperControl = true
  defaultShift_le : c.defaultShift ≤ maxShift
  defaults_mres : c.slotLayout.mres.get c.defaults.driveControl = c.mresCode c.defaultShift
  defaults_intpol : c.slotLayout.intpol.get c.defaults.driveControl = c.defaultInterp.toNat
  current_bounds : c.minCurrent ≤ c.maxCurrent
  divisor_pos : 1 ≤ c.currentFormula.divisor
  current_nonneg : 0 ≤ (c.currentFormula.scale : Int) * c.minCurrent + c.currentFormula.offset
  current_fits : c.currentCode c.maxCurrent < 2 ^ c.slotLayout.cs.width
  stepClockRate_pos : 1 ≤ c.stepClockRate
  stepClockRate_lt : c.stepClockRate < 2 ^ 32
  defaultMinSps_lt : c.defaultMinSps < 2 ^ 32
  axisOf_total : c.maxDrivers ≤ c.axisOf.length
  selectMap_total : c.maxDrivers ≤ c.selectMap.length
  selectMap_nodup : c.selectMap.Nodup

end Sys2Proof
end

