-- ==== Sys2Proof/Safety.lean ====
section
/-! DEFINITION. The terms in which statements about the block are made: the invariants of 10_state.md R36, the frames of an
operation, what START sends, the order of service, and runs. -/

namespace Sys2Proof

/-- `w` is `v` outside the bits of a field. -/
abbrev Field.AgreesOutside (f : Field) (w v : Word) : Prop :=
  w &&& ~~~f.mask = v &&& ~~~f.mask

end Sys2Proof

namespace Sys2Proof.Machine

/-- The invariants of one driver in range (10_state.md R22, R25, R26, R28, R29, R36 items 4, 5 and 7). -/
structure Driver.Inv (c : Cfg) (r : Driver) : Prop where
  /-- R22 -/
  tags : ∀ sl : Slot, r.reg.get sl &&& ~~~c.payloadMask.get sl = c.tag.get sl
  /-- R25: the configured value carries the tag of its slot too -/
  chopCfg_tag : r.chopCfg &&& ~~~c.payloadMask.chopperControl = c.tag.chopperControl
  /-- R36 item 5 -/
  chopCfg_valid : c.chopValid r.chopCfg = true
  /-- R25, enabled -/
  chopper_enabled : r.en = true → r.reg.chopperControl = r.chopCfg
  /-- R25, disabled -/
  chopper_disabled : r.en = false → r.reg.chopperControl = c.slotLayout.toff.set r.chopCfg 0
  /-- R26 -/
  mshift_le : r.mshift.toNat ≤ maxShift
  /-- R26 -/
  mres : c.slotLayout.mres.get r.reg.driveControl = c.mresCode r.mshift.toNat
  /-- R26 -/
  intpol : c.slotLayout.intpol.get r.reg.driveControl = r.interp.toNat
  /-- R36 item 7 -/
  window : r.minLoad ≤ r.maxLoad ∨ (r.minLoad = c.emptyMinLoad ∧ r.maxLoad = emptyMaxLoad)
  /-- R28: `W` bits -/
  live_fits : c.FitsWord r.live
  /-- R28: `W` bits -/
  acc_fits : c.FitsWord r.acc
  /-- R29: `LoadBits` bits -/
  minLoad_lt : r.minLoad.toNat < 2 ^ c.loadBits
  /-- R29: `LoadBits` bits -/
  maxLoad_lt : r.maxLoad.toNat < 2 ^ c.loadBits

/-- The invariants of every reachable state (10_state.md R36; item 6 is about steps, not states). -/
structure State.Inv (s : State) : Prop where
  /-- the configuration is one of this hardware (00_scope.md R5) -/
  cfg_valid : s.cfg.Valid
  /-- R20: one record for each of `MaxDrivers` -/
  records : s.drivers.length = s.cfg.maxDrivers
  /-- R31 -/
  n_le : s.n ≤ s.cfg.maxDrivers
  /-- R31 -/
  n_zero : s.inited = false → s.n = 0
  /-- R36 item 1 -/
  cur_lt : ∀ d, s.cur = some d → d < s.n
  /-- R36 item 1 -/
  cur_inited : s.cur ≠ none → 0 < s.n ∧ s.inited = true
  /-- R36 item 2 -/
  irq_iff : s.irqEn = true ↔ s.cur ≠ none
  /-- R36 item 3 -/
  running : s.powered = true → s.inited = true → 0 < s.n → s.cur ≠ none
  /-- R36 items 4, 5 and 7 -/
  drivers : ∀ d, d < s.n → (s.driver d).Inv s.cfg

/-- Every driver in range has a record (10_state.md R20, R31). -/
abbrev State.Shaped (s : State) : Prop := s.n ≤ s.drivers.length

/-- The reset input is not among what is still to come. -/
abbrev State.NoResetToCome (s : State) : Prop := Stimulus.resetInput ∉ s.inputs

/-- Nothing but the records and the response differs between `s` and `t`. -/
structure State.ControlUnchanged (s t : State) : Prop where
  cfg : t.cfg = s.cfg
  n : t.n = s.n
  inited : t.inited = s.inited
  powered : t.powered = s.powered
  cur : t.cur = s.cur
  irqEn : t.irqEn = s.irqEn
  inputs : t.inputs = s.inputs
  trace : t.trace = s.trace
  ports : t.ports = s.ports

/-- Nothing but the record of driver `d` and the response differs between `s` and `t`. -/
structure State.OnlyRecordChanged (d : Nat) (s t : State) : Prop extends State.ControlUnchanged s t where
  records : t.drivers.length = s.drivers.length
  others : ∀ e, e ≠ d → t.driver e = s.driver e

/-- The record after a command that only sets the slot word `w` and marks the slot pending
(42_config_operations.md R159). -/
def Driver.withSlotMarked (r : Driver) (sl : Slot) (w : Word) : Driver :=
  { r with reg := r.reg.set sl w, pend := Pending.mark r.pend sl }

/-- What START sends for a record, and the bitmap it leaves: the lowest-indexed pending slot, its bit cleared, or, with
nothing pending, the `SmartEnable` value as a poll (40_transfer_scheduler.md R111). -/
def Driver.Sends (r : Driver) (kind : TxKind) (word : Word) (left : Pending) : Prop :=
  (∃ sl : Slot, Pending.isMarked r.pend sl = true
      ∧ (∀ u : Slot, u.index < sl.index → Pending.isMarked r.pend u = false)
      ∧ kind = .slot sl ∧ word = r.reg.get sl ∧ left = Pending.unmark r.pend sl)
    ∨ (r.pend = 0 ∧ kind = .poll ∧ word = r.reg.smartEnable ∧ left = 0)

/-- The driver a trace entry shows a START for. -/
def BusEvent.txTarget : BusEvent → Option Nat
  | .tx d _ _ => some d
  | .rx _ _ _ => none
  | .halt _ => none

/-- Whether a trace entry is a halt. -/
def BusEvent.isHalt : BusEvent → Bool
  | .tx _ _ _ => false
  | .rx _ _ _ => false
  | .halt _ => true

/-- A trace entry with the status word received blanked. -/
def BusEvent.withoutStatus : BusEvent → BusEvent
  | .tx d kind word => .tx d kind word
  | .rx d _ iv => .rx d 0 iv
  | .halt d => .halt d

/-- The trace entries of a run from `s` to `t`. -/
def State.traceSince (s t : State) : List BusEvent :=
  t.trace.drop s.trace.length

/-- The drivers a list of trace entries shows STARTs for, in order. -/
def startTargets (events : List BusEvent) : List Nat :=
  events.filterMap BusEvent.txTarget

/-- No COMPLETE of a run from `s` to `t` found the system unpowered. -/
def State.NoHaltSince (s t : State) : Prop :=
  ∀ e ∈ s.traceSince t, e.isHalt = false

/-- A list of completion events as stimuli (30_encoding.md R84). -/
def completions (events : List (Word × BitVec 32)) : List Stimulus :=
  events.map fun e => .word (eventWord e.1 e.2)

/-- The number of slots `i ≤ sl` pending in a bitmap, the `k` of 40_transfer_scheduler.md R118. -/
def pendingUpTo (p : Pending) (sl : Slot) : Nat :=
  (Slot.all.filter fun u => decide (u.index ≤ sl.index) && Pending.isMarked p u).length

end Sys2Proof.Machine
end

