-- ==== Sys2Proof/Certificates/Slice0/Obligations.lean ====
section
/-! DEFINITION. The statements for the provers. Each follows the rules of spec/ its docstring names. -/

open Sys2Proof Sys2Proof.Machine

/-! ### Encoding (30_encoding.md) -/

/-- 30_encoding.md R81, R83 to R85: decoding the word of a well-formed operation gives the operation back, in every
configuration. -/
def Obligations.DecodeEncodeRoundTrip : Prop :=
  ∀ (c : Cfg) (i : Instr), i.wf c = true → decode c (encode i) = .ok i

/-- 30_encoding.md R81, R84, R85: whatever the word, the operands the decoder reads are in the ranges of their fields. -/
def Obligations.DecodedOperandsInRange : Prop :=
  ∀ (c : Cfg) (w : StimulusWord) (i : Instr), decode c w = .ok i → i.wf c = true

/-- 30_encoding.md R81, R84, R85, R88 b: what a word decodes to depends on its opcode and on the bits R84 and R85 give that
operation, and on no other bit: reserved bits, unused operand bits, and `drv` for `Init`, `Spin` and `ForceOff` are ignored.
`raw` is taken by the payload mask, which is the model's choice where R85 says `operand[16:0]` (log entry 27); in the reference
configuration the two are the same 17 bits. -/
def Obligations.ReservedBitsIgnored : Prop :=
  ∀ (c : Cfg) (w v : StimulusWord), opcodeField w = opcodeField v →
    (opcodeField w = 0x01 → operandField w = operandField v → decode c w = decode c v)
    ∧ (opcodeField w = 0x02 → w.getLsbD 0 = v.getLsbD 0 → decode c w = decode c v)
    ∧ (opcodeField w = 0x03 → decode c w = decode c v)
    ∧ (opcodeField w = 0x10 → drvField w = drvField v → (∀ b, b ≤ 8 → w.getLsbD b = v.getLsbD b) → decode c w = decode c v)
    ∧ (opcodeField w = 0x11 ∨ opcodeField w = 0x14 ∨ opcodeField w = 0x17 → drvField w = drvField v →
        operandField w = operandField v → decode c w = decode c v)
    ∧ (opcodeField w = 0x12 → drvField w = drvField v →
        (∀ b, c.payloadMask.chopperControl.getLsbD b = true → w.getLsbD b = v.getLsbD b) → decode c w = decode c v)
    ∧ (opcodeField w = 0x16 → drvField w = drvField v →
        (∀ b, c.payloadMask.smartEnable.getLsbD b = true → w.getLsbD b = v.getLsbD b) → decode c w = decode c v)
    ∧ (opcodeField w = 0x12 ∨ opcodeField w = 0x16 → drvField w = drvField v →
        (∀ b, b ≤ 16 → w.getLsbD b = v.getLsbD b) → decode Cfg.reference w = decode Cfg.reference v)
    ∧ (opcodeField w = 0x13 ∨ opcodeField w = 0x15 → drvField w = drvField v → w.getLsbD 0 = v.getLsbD 0 →
        decode c w = decode c v)
    ∧ (opcodeField w = 0x20 ∨ opcodeField w = 0x21 ∨ opcodeField w = 0x22 ∨ opcodeField w = 0x23 ∨ opcodeField w = 0x30
          ∨ opcodeField w = 0x31 → drvField w = drvField v → decode c w = decode c v)
    ∧ (opcodeField w = 0x24 → drvField w = drvField v → (∀ b, b < c.wordBits → w.getLsbD b = v.getLsbD b) →
        decode c w = decode c v)
    ∧ (opcodeField w = 0xC0 → (∀ b, b < 32 + c.wordBits → w.getLsbD b = v.getLsbD b) → decode c w = decode c v)

/-- 30_encoding.md R83, R85, on words of 95_test_vectors.md. -/
def Obligations.WrittenOutWordsDecode : Prop :=
  decode Cfg.reference 0x0100000000000002 = .ok (.init 2)
  ∧ decode Cfg.reference 0x10000000000001FF = .ok (.setMicrostepping 0 255 true)
  ∧ decode Cfg.reference 0x12000000FFFE0003 = .ok (.setChopperConfig 0 0x00003)
  ∧ decode Cfg.reference 0x1400000080000000 = .ok (.setStallThreshold 0 (-2147483648))
  ∧ decode Cfg.reference 0x24000000000FFFFF = .ok (.readAccumulatedStatus 0 0xFFFFF)
  ∧ decode Cfg.reference 0x3101000000000000 = .ok (.appendStallConfig 1)
  ∧ decode Cfg.reference 0xC00258800000124F = .ok (.complete 0x25880 4687)

/-! ### The step (00_scope.md R8) -/

/-- A word at the head of the inputs that decodes to an operation runs that operation, on the state with the word
taken and nothing else changed. -/
def Obligations.StepRunsDecodedOperation : Prop :=
  ∀ (s : State) (w : StimulusWord) (rest : List Stimulus) (i : Instr),
    s.inputs = .word w :: rest → decode s.cfg w = .ok i →
    step s = exec i { s with inputs := rest }

/-- 30_encoding.md R88 a, 60_exceptions.md R191 F6: a word whose opcode is none of R83's produces `fail` and changes no state. -/
def Obligations.ReservedOpcodeFails : Prop :=
  ∀ (s : State) (w : StimulusWord) (rest : List Stimulus), s.inputs = .word w :: rest →
    opcodeField w ∉ ([0x01, 0x02, 0x03, 0x10, 0x11, 0x12, 0x13, 0x14, 0x15, 0x16, 0x17, 0x20, 0x21, 0x22, 0x23, 0x24,
      0x30, 0x31, 0xC0] : List (BitVec 8)) →
    step s = .next { s with inputs := rest, resp := some ⟨false, 0⟩ }

/-- 43_power_control.md R182: the `force_off` strobe has the effect of the `ForceOff` command. That it also makes the
command's response is the model's choice (log entry 9). -/
def Obligations.StrobeIsForceOff : Prop :=
  ∀ (s : State) (rest : List Stimulus), s.inputs = .forceOffStrobe :: rest →
    step s = .next { s with inputs := rest, powered := false, resp := some ⟨true, 0⟩ }

/-- 70_reset_and_hazards.md R220, R221: the reset input puts the block in the reset state at any time. That it is taken as an
event among the others, makes no response and leaves the trace and the waiting inputs is the model's choice (log entry 26). -/
def Obligations.ResetInputResets : Prop :=
  ∀ (s : State) (rest : List Stimulus), s.inputs = .resetInput :: rest →
    ∃ t, step s = .next t ∧ t.cfg = s.cfg ∧ t.n = 0 ∧ t.inited = false ∧ t.powered = false ∧ t.cur = none ∧ t.irqEn = false
      ∧ t.drivers.length = s.cfg.maxDrivers ∧ t.drvEnable = false ∧ (∀ signal, t.selectLine signal = false)
      ∧ t.inputs = rest ∧ t.resp = none ∧ t.trace = s.trace

/-! ### Reset (10_state.md R37, 70_reset_and_hazards.md R220, R221) -/

/-- 70_reset_and_hazards.md R220: what the power-on reset leaves, whatever the configuration. -/
def Obligations.ResetLeavesNothingRunning : Prop :=
  ∀ c : Cfg, (State.powerOn c).cfg = c ∧ (State.powerOn c).n = 0 ∧ (State.powerOn c).inited = false
    ∧ (State.powerOn c).powered = false ∧ (State.powerOn c).cur = none ∧ (State.powerOn c).irqEn = false
    ∧ (State.powerOn c).drvEnable = false ∧ (State.powerOn c).quiescent = true
    ∧ (∀ d, (State.powerOn c).selectAsserted d = false)

/-- 70_reset_and_hazards.md R221: in the reset state every indexed command fails, `Spin 1` sets `powered` and starts nothing,
`Spin 0` and `ForceOff` do nothing, COMPLETE is not enabled, and no operation but `Init` brings a driver into range. That a
COMPLETE not enabled is the fault `completeNotEnabled` is the model's choice (log entry 7). -/
def Obligations.OnlyInitBringsDriversIntoRange : Prop :=
  ∀ c : Cfg,
    (∀ (i : Instr) (d : Nat), i.driverIndex = some d →
      exec i (State.powerOn c) = .next { State.powerOn c with resp := some ⟨false, 0⟩ })
    ∧ exec (.spin true) (State.powerOn c) = .next { State.powerOn c with powered := true, resp := some ⟨true, 0⟩ }
    ∧ exec (.spin false) (State.powerOn c) = .next { State.powerOn c with resp := some ⟨true, 0⟩ }
    ∧ exec .forceOff (State.powerOn c) = .next { State.powerOn c with resp := some ⟨true, 0⟩ }
    ∧ (∀ rx iv, exec (.complete rx iv) (State.powerOn c) = .fault .completeNotEnabled)
    ∧ (∀ (i : Instr) (t : State), exec i (State.powerOn c) = .next t → 0 < t.n → ∃ count, i = .init count)

/-! ### Invariants (10_state.md R36) -/

/-- The invariants of 10_state.md R36 hold after power-on reset in every configuration of this hardware, and the reference
configuration is one. -/
def Obligations.InvariantsHoldAtReset : Prop :=
  (∀ c : Cfg, c.Valid → (State.powerOn c).Inv) ∧ State.reset.Inv

/-- 10_state.md R36 (with R22, R25, R26): every step keeps the invariants. -/
def Obligations.EveryStepKeepsTheInvariants : Prop :=
  ∀ s t : State, s.Inv → step s = .next t → t.Inv

/-- 10_state.md R36 item 6, R20: no step but the reset input's writes the record of a driver that is out of range after it. -/
def Obligations.RecordsOutOfRangeNeverWritten : Prop :=
  ∀ s t : State, s.Inv → s.NoResetToCome → step s = .next t → ∀ d, t.n ≤ d → t.driver d = s.driver d

/-- 10_state.md R31, R38: no step writes the configuration, and, the reset input apart, only the first `Init` writes `N` or
`inited`. -/
def Obligations.DriverCountWrittenByFirstInitOnly : Prop :=
  ∀ s t : State, step s = .next t →
    t.cfg = s.cfg
    ∧ (s.NoResetToCome → t.n ≠ s.n ∨ t.inited ≠ s.inited →
        s.inited = false ∧ t.inited = true
        ∧ ∃ w rest count, s.inputs = .word w :: rest ∧ decode s.cfg w = .ok (.init count) ∧ t.n = min count s.cfg.maxDrivers)

/-! ### Failures (60_exceptions.md R190, R191) -/

/-- 42_config_operations.md R150: an indexed command with an index out of range is `fail`, whatever its operands. -/
def Obligations.IndexOutOfRangeFails : Prop :=
  ∀ (i : Instr) (d : Nat) (s : State), i.driverIndex = some d → s.n ≤ d →
    exec i s = .next { s with resp := some ⟨false, 0⟩ }

/-- 60_exceptions.md R191, 30_encoding.md R86: an operation fails exactly on the listed causes; then the value is 0 and no
state changes. -/
def Obligations.FailExactlyOnTheListedCauses : Prop :=
  ∀ (i : Instr) (s t : State), exec i s = .next t →
    ((∃ v, t.resp = some ⟨false, v⟩) ↔ failCause i s ≠ none)
    ∧ (failCause i s ≠ none → t = { s with resp := some ⟨false, 0⟩ })

/-- 42_config_operations.md R163: the three validation failures leave all state unchanged, and every other operand value of
every setter is accepted. -/
def Obligations.ValidationFailuresAreExactlyThree : Prop :=
  ∀ (s : State) (d : Nat), d < s.n →
    (∀ shift interp, 8 < shift → exec (.setMicrostepping d shift interp) s = .next { s with resp := some ⟨false, 0⟩ })
    ∧ (∀ raw, s.cfg.slotLayout.toff.get (s.cfg.slotWord .chopperControl raw) = 0 →
        exec (.setChopperConfig d raw) s = .next { s with resp := some ⟨false, 0⟩ })
    ∧ (∀ raw, s.cfg.slotLayout.toff.get (s.cfg.slotWord .chopperControl raw) = 1 →
        s.cfg.slotLayout.tbl.get (s.cfg.slotWord .chopperControl raw) = 0 →
        exec (.setChopperConfig d raw) s = .next { s with resp := some ⟨false, 0⟩ })
    ∧ (∀ shift interp, shift ≤ 8 → ∃ t, exec (.setMicrostepping d shift interp) s = .next t ∧ t.resp = some ⟨true, 0⟩)
    ∧ (∀ raw, s.cfg.slotLayout.toff.get (s.cfg.slotWord .chopperControl raw) ≠ 0 →
        ¬ (s.cfg.slotLayout.toff.get (s.cfg.slotWord .chopperControl raw) = 1
          ∧ s.cfg.slotLayout.tbl.get (s.cfg.slotWord .chopperControl raw) = 0) →
        ∃ t, exec (.setChopperConfig d raw) s = .next t ∧ t.resp = some ⟨true, 0⟩)
    ∧ (∀ i : Instr, (∃ v, i = .setCurrent d v) ∨ (∃ v, i = .enable d v) ∨ (∃ v, i = .setStallThreshold d v)
          ∨ (∃ v, i = .setStallFilter d v) ∨ (∃ v, i = .setCoolStepConfig d v)
          ∨ (∃ v, i = .setStallMinStepsPerSecond d v) →
        ∃ t, exec i s = .next t ∧ t.resp = some ⟨true, 0⟩)

/-! ### Power control (43_power_control.md) -/

/-- 43_power_control.md R180: the first `Init` takes `min(count, MaxDrivers)` drivers, writes every field of each of their
records, writes no other record, and configures their select signals. -/
def Obligations.InitInstallsTheDefaults : Prop :=
  ∀ (s : State) (count : Nat), s.cfg.Valid → s.drivers.length = s.cfg.maxDrivers → s.inited = false →
    ∃ t, exec (.init count) s = .next t
      ∧ t.n = min count s.cfg.maxDrivers ∧ t.resp = some ⟨true, BitVec.ofNat 64 t.n⟩
      ∧ t.inited = true ∧ t.powered = false ∧ t.cur = none ∧ t.irqEn = false
      ∧ (∀ d, d < t.n →
          (∀ sl : Slot, sl ≠ .chopperControl → (t.driver d).reg.get sl = s.cfg.defaults.get sl)
          ∧ s.cfg.slotLayout.toff.get (t.driver d).reg.chopperControl = 0
          ∧ s.cfg.slotLayout.toff.AgreesOutside (t.driver d).reg.chopperControl s.cfg.defaults.chopperControl
          ∧ (∀ sl : Slot, Pending.isMarked (t.driver d).pend sl = true)
          ∧ (t.driver d).en = false ∧ (t.driver d).chopCfg = s.cfg.defaults.chopperControl
          ∧ (t.driver d).mshift.toNat = s.cfg.defaultShift ∧ (t.driver d).interp = s.cfg.defaultInterp
          ∧ (t.driver d).maxIv.toNat = s.cfg.stepClockRate / max s.cfg.defaultMinSps 1
          ∧ (t.driver d).live = 0 ∧ (t.driver d).acc = 0
          ∧ (t.driver d).minLoad.toNat = 2 ^ s.cfg.loadBits - 1 ∧ (t.driver d).maxLoad = 0)
      ∧ (∀ d, t.n ≤ d → t.driver d = s.driver d) ∧ t.drivers.length = s.drivers.length
      ∧ t.cfg = s.cfg ∧ t.inputs = s.inputs ∧ t.trace = s.trace
      ∧ t.ports = s.ports ++ (List.range t.n).map fun d => .selectConfigured (s.cfg.select d)

/-- 43_power_control.md R180 corner case a: every `Init` after the first is `fail` with no state change. -/
def Obligations.SecondInitRefused : Prop :=
  ∀ (s : State) (count : Nat), s.inited = true → exec (.init count) s = .next { s with resp := some ⟨false, 0⟩ }

/-- 43_power_control.md R181: power restored while the chain is idle resynchronises every driver in range, enables the
completion interrupt and starts driver 0 with slot 0, whose bit is cleared. -/
def Obligations.SpinRestartsTheIdleChain : Prop :=
  ∀ s : State, s.Shaped → s.powered = false → s.cur = none → 0 < s.n →
    ∃ t, exec (.spin true) s = .next t
      ∧ t.resp = some ⟨true, 0⟩ ∧ t.powered = true ∧ t.irqEn = true ∧ t.cur = some 0
      ∧ t.driver 0 = { s.driver 0 with pend := 0b11110 }
      ∧ (∀ d, 0 < d → d < s.n → t.driver d = { s.driver d with pend := 0b11111 })
      ∧ (∀ d, s.n ≤ d → t.driver d = s.driver d) ∧ t.drivers.length = s.drivers.length
      ∧ t.trace = s.trace ++ [.tx 0 (.slot .driveControl) (s.driver 0).reg.driveControl]
      ∧ t.ports = s.ports ++ [.busStart (s.cfg.select 0) (s.driver 0).reg.driveControl]
      ∧ t.cfg = s.cfg ∧ t.n = s.n ∧ t.inited = s.inited ∧ t.inputs = s.inputs

/-- 43_power_control.md R181 corner cases c and d: power restored with a transfer in flight, or with no driver, marks
everything pending and starts nothing. -/
def Obligations.SpinWhileDrainingStartsNothing : Prop :=
  ∀ s : State, s.Shaped → s.powered = false → (s.cur ≠ none ∨ s.n = 0) →
    ∃ t, exec (.spin true) s = .next t
      ∧ t.resp = some ⟨true, 0⟩ ∧ t.powered = true
      ∧ (∀ d, d < s.n → t.driver d = { s.driver d with pend := 0b11111 })
      ∧ (∀ d, s.n ≤ d → t.driver d = s.driver d) ∧ t.drivers.length = s.drivers.length
      ∧ t.cur = s.cur ∧ t.irqEn = s.irqEn ∧ t.trace = s.trace ∧ t.ports = s.ports
      ∧ t.cfg = s.cfg ∧ t.n = s.n ∧ t.inited = s.inited ∧ t.inputs = s.inputs

/-- 43_power_control.md R181 corner cases a and b: `Spin 0` while powered clears `powered` only; `Spin` to the state
already held changes nothing. -/
def Obligations.SpinOffAndIdempotentSpin : Prop :=
  ∀ s : State,
    (s.powered = true → exec (.spin false) s = .next { s with powered := false, resp := some ⟨true, 0⟩ })
    ∧ exec (.spin s.powered) s = .next { s with resp := some ⟨true, 0⟩ }

/-- 43_power_control.md R182: `ForceOff` writes `powered` only, and its effect on the state is that of `Spin 0`. -/
def Obligations.ForceOffClearsPoweredOnly : Prop :=
  ∀ s : State, exec .forceOff s = .next { s with powered := false, resp := some ⟨true, 0⟩ }
    ∧ exec .forceOff s = exec (.spin false) s

/-- 43_power_control.md R183: the transitions of the power state machine, for an initialised block with drivers. -/
def Obligations.PowerStateMachine : Prop :=
  ∀ (s t : State) (i : Instr), s.Inv → s.inited = true → 0 < s.n → exec i s = .next t →
    s.powerState ≠ .onStopped
    ∧ (s.powerState = .offIdle →
        (i = .spin true → t.powerState = .onRunning) ∧ (i ≠ .spin true → t.powerState = .offIdle))
    ∧ (s.powerState = .onRunning →
        (i = .spin false ∨ i = .forceOff → t.powerState = .offDraining)
        ∧ (¬ (i = .spin false ∨ i = .forceOff) → t.powerState = .onRunning))
    ∧ (s.powerState = .offDraining →
        (i = .spin true → t.powerState = .onRunning)
        ∧ (∀ rx iv, i = .complete rx iv → t.powerState = .offIdle)
        ∧ (i ≠ .spin true → (∀ rx iv, i ≠ .complete rx iv) → t.powerState = .offDraining))
    ∧ (t.irqEn = true ↔ t.powerState = .onRunning ∨ t.powerState = .offDraining)

/-! ### Configuration (42_config_operations.md) -/

/-- 42_config_operations.md R151, R159, 10_state.md R26. -/
def Obligations.SetMicrosteppingResult : Prop :=
  ∀ (s : State) (d shift : Nat) (interp : Bool), s.cfg.Valid → s.Shaped → d < s.n → shift ≤ 8 →
    ∃ t w, exec (.setMicrostepping d shift interp) s = .next t ∧ t.resp = some ⟨true, 0⟩
      ∧ s.OnlyRecordChanged d t
      ∧ t.driver d = { (s.driver d).withSlotMarked .driveControl w with mshift := BitVec.ofNat 4 shift, interp := interp }
      ∧ (t.driver d).mshift.toNat = shift
      ∧ s.cfg.slotLayout.mres.get w = s.cfg.mresCode shift
      ∧ s.cfg.slotLayout.intpol.get w = interp.toNat
      ∧ w &&& ~~~(s.cfg.slotLayout.mres.mask ||| s.cfg.slotLayout.intpol.mask)
          = (s.driver d).reg.driveControl &&& ~~~(s.cfg.slotLayout.mres.mask ||| s.cfg.slotLayout.intpol.mask)

/-- 42_config_operations.md R152, R159, 30_encoding.md R98 item 1: clamp, convert, write `CS`; nothing is lost in the narrowing. -/
def Obligations.SetCurrentResult : Prop :=
  ∀ (s : State) (d current : Nat), s.cfg.Valid → s.Shaped → d < s.n →
    ∃ t w, exec (.setCurrent d current) s = .next t ∧ t.resp = some ⟨true, 0⟩
      ∧ s.OnlyRecordChanged d t
      ∧ t.driver d = (s.driver d).withSlotMarked .stallGuardConfig w
      ∧ s.cfg.slotLayout.cs.get w = s.cfg.currentCode (max s.cfg.minCurrent (min current s.cfg.maxCurrent))
      ∧ s.cfg.slotLayout.cs.AgreesOutside w (s.driver d).reg.stallGuardConfig
      ∧ s.cfg.slotLayout.sgt.get w = s.cfg.slotLayout.sgt.get (s.driver d).reg.stallGuardConfig
      ∧ s.cfg.slotLayout.sfilt.get w = s.cfg.slotLayout.sfilt.get (s.driver d).reg.stallGuardConfig

/-- 42_config_operations.md R153, R159: a valid chopper value becomes the configured one, the effective value is regenerated
per the enable state. -/
def Obligations.SetChopperConfigResult : Prop :=
  ∀ (s : State) (d : Nat) (raw x : Word), s.cfg.Valid → s.Shaped → d < s.n →
    x = s.cfg.tag.chopperControl ||| (raw &&& s.cfg.payloadMask.chopperControl) →
    s.cfg.slotLayout.toff.get x ≠ 0 →
    ¬ (s.cfg.slotLayout.toff.get x = 1 ∧ s.cfg.slotLayout.tbl.get x = 0) →
    ∃ t w, exec (.setChopperConfig d raw) s = .next t ∧ t.resp = some ⟨true, 0⟩
      ∧ s.OnlyRecordChanged d t
      ∧ t.driver d = { (s.driver d).withSlotMarked .chopperControl w with chopCfg := x }
      ∧ ((s.driver d).en = true → w = x)
      ∧ ((s.driver d).en = false → s.cfg.slotLayout.toff.get w = 0 ∧ s.cfg.slotLayout.toff.AgreesOutside w x)

/-- 42_config_operations.md R154, R159: a real transition of the enable flag. -/
def Obligations.EnableTransitionResult : Prop :=
  ∀ (s : State) (d : Nat), s.cfg.Valid → s.Shaped → d < s.n →
    ((s.driver d).en = false →
      ∃ t l a, exec (.enable d true) s = .next t ∧ t.resp = some ⟨true, 0⟩
        ∧ s.OnlyRecordChanged d t
        ∧ t.driver d = { (s.driver d).withSlotMarked .chopperControl (s.driver d).chopCfg with
            en := true, live := l, acc := a }
        ∧ s.cfg.statusLayout.sg.get l = 0 ∧ s.cfg.statusLayout.sg.AgreesOutside l (s.driver d).live
        ∧ s.cfg.statusLayout.sg.get a = 0 ∧ s.cfg.statusLayout.sg.AgreesOutside a (s.driver d).acc)
    ∧ ((s.driver d).en = true →
      ∃ t w, exec (.enable d false) s = .next t ∧ t.resp = some ⟨true, 0⟩
        ∧ s.OnlyRecordChanged d t
        ∧ t.driver d = { (s.driver d).withSlotMarked .chopperControl w with en := false }
        ∧ s.cfg.slotLayout.toff.get w = 0 ∧ s.cfg.slotLayout.toff.AgreesOutside w (s.driver d).chopCfg)

/-- 42_config_operations.md R154: "No-op if state unchanged": nothing written, no bit set. -/
def Obligations.EnableToTheStateHeldIsNoOp : Prop :=
  ∀ (s : State) (d : Nat), d < s.n →
    exec (.enable d (s.driver d).en) s = .next { s with resp := some ⟨true, 0⟩ }

/-- 42_config_operations.md R155, R159, 30_encoding.md R98 items 1 and 2: the stored field, sign-extended, is the clamped
threshold. -/
def Obligations.SetStallThresholdResult : Prop :=
  ∀ (s : State) (d : Nat) (v : Int), s.cfg.Valid → s.Shaped → d < s.n →
    ∃ t w, exec (.setStallThreshold d v) s = .next t ∧ t.resp = some ⟨true, 0⟩
      ∧ s.OnlyRecordChanged d t
      ∧ t.driver d = (s.driver d).withSlotMarked .stallGuardConfig w
      ∧ signedThreshold (s.cfg.slotLayout.sgt.get w) = max (-64) (min v 63)
      ∧ s.cfg.slotLayout.sgt.AgreesOutside w (s.driver d).reg.stallGuardConfig
      ∧ s.cfg.slotLayout.cs.get w = s.cfg.slotLayout.cs.get (s.driver d).reg.stallGuardConfig
      ∧ s.cfg.slotLayout.sfilt.get w = s.cfg.slotLayout.sfilt.get (s.driver d).reg.stallGuardConfig

/-- 42_config_operations.md R156, R159. -/
def Obligations.SetStallFilterResult : Prop :=
  ∀ (s : State) (d : Nat) (on : Bool), s.cfg.Valid → s.Shaped → d < s.n →
    ∃ t w, exec (.setStallFilter d on) s = .next t ∧ t.resp = some ⟨true, 0⟩
      ∧ s.OnlyRecordChanged d t
      ∧ t.driver d = (s.driver d).withSlotMarked .stallGuardConfig w
      ∧ s.cfg.slotLayout.sfilt.get w = on.toNat
      ∧ s.cfg.slotLayout.sfilt.AgreesOutside w (s.driver d).reg.stallGuardConfig

/-- 42_config_operations.md R157, R159: every payload is accepted; the tag is the slot's, whatever the operand. -/
def Obligations.SetCoolStepConfigResult : Prop :=
  ∀ (s : State) (d : Nat) (raw : Word), s.cfg.Valid → s.Shaped → d < s.n →
    ∃ t w, exec (.setCoolStepConfig d raw) s = .next t ∧ t.resp = some ⟨true, 0⟩
      ∧ s.OnlyRecordChanged d t
      ∧ t.driver d = (s.driver d).withSlotMarked .smartEnable w
      ∧ w &&& s.cfg.payloadMask.smartEnable = raw &&& s.cfg.payloadMask.smartEnable
      ∧ w &&& ~~~s.cfg.payloadMask.smartEnable = s.cfg.tag.smartEnable

/-- 42_config_operations.md R158, 30_encoding.md R98 item 3: the quotient fits; no slot and no pending bit. -/
def Obligations.SetStallMinStepsPerSecondResult : Prop :=
  ∀ (s : State) (d rate : Nat), s.cfg.Valid → s.Shaped → d < s.n →
    ∃ t m, exec (.setStallMinStepsPerSecond d rate) s = .next t ∧ t.resp = some ⟨true, 0⟩
      ∧ s.OnlyRecordChanged d t
      ∧ t.driver d = { s.driver d with maxIv := m }
      ∧ m.toNat = s.cfg.stepClockRate / max rate 1

/-- 42_config_operations.md R160 to R162, 30_encoding.md R87, 20_memory.md R66: the getters return the setting and write no
state. -/
def Obligations.GettersReturnAndWriteNothing : Prop :=
  ∀ (s : State) (d : Nat), d < s.n →
    (∃ v : BitVec 64, exec (.getMicrostepping d) s = .next { s with resp := some ⟨true, v⟩ }
      ∧ v.toNat = (s.driver d).mshift.toNat + 256 * (s.driver d).interp.toNat)
    ∧ (∃ v : BitVec 64, exec (.getChopperConfig d) s = .next { s with resp := some ⟨true, v⟩ }
      ∧ v.toNat = (s.driver d).chopCfg.toNat)
    ∧ (∃ v : BitVec 64, exec (.isEnabled d) s = .next { s with resp := some ⟨true, v⟩ }
      ∧ v.toNat = (s.driver d).en.toNat)

/-! ### Status (41_status_accumulator.md) -/

/-- 41_status_accumulator.md R131: the gate, with its corner cases. -/
def Obligations.NoiseGateJudgesTheInterval : Prop :=
  ∀ iv m : BitVec 32,
    (stallGate iv m = true ↔ iv.toNat ≠ 0 ∧ iv.toNat ≤ m.toNat)
    ∧ (m.toNat ≠ 0 → stallGate m m = true) ∧ stallGate iv 0 = false

/-- 41_status_accumulator.md R133, 90_conflicts.md C3: the stall bit is suppressed at the read for a disabled driver;
nothing is written. -/
def Obligations.ReadLiveStatusSuppressesTheStallBit : Prop :=
  ∀ (s : State) (d : Nat), s.cfg.Valid → d < s.n →
    ∃ v : Word, exec (.readLiveStatus d) s = .next { s with resp := some ⟨true, v.setWidth 64⟩ }
      ∧ ((s.driver d).en = true → v = (s.driver d).live)
      ∧ ((s.driver d).en = false →
          s.cfg.statusLayout.sg.get v = 0 ∧ s.cfg.statusLayout.sg.AgreesOutside v (s.driver d).live)

/-- 41_status_accumulator.md R134, 90_conflicts.md C1: the value before the clear; a bit survives exactly if the retain-mask
has it. -/
def Obligations.ReadAccumulatedStatusRetainsTheMask : Prop :=
  ∀ (s : State) (d : Nat) (mask : Word), s.Shaped → d < s.n →
    ∃ t a, exec (.readAccumulatedStatus d mask) s = .next t
      ∧ t.resp = some ⟨true, (s.driver d).acc.setWidth 64⟩
      ∧ s.OnlyRecordChanged d t
      ∧ t.driver d = { s.driver d with acc := a }
      ∧ (∀ b : Nat, a.getLsbD b = true ↔ (s.driver d).acc.getLsbD b = true ∧ mask.getLsbD b = true)

/-- 41_status_accumulator.md R136, 30_encoding.md R87: the four parts of the report, as they were; then the window is
empty. -/
def Obligations.AppendStatusReportResult : Prop :=
  ∀ (s : State) (d : Nat), s.Inv → d < s.n →
    ∃ t val m view, exec (.appendStatusReport d) s = .next t ∧ t.resp = some ⟨true, val⟩
      ∧ s.OnlyRecordChanged d t
      ∧ t.driver d = { s.driver d with minLoad := m, maxLoad := 0 }
      ∧ m.toNat = 2 ^ s.cfg.loadBits - 1
      ∧ ((s.driver d).en = true → view = (s.driver d).live)
      ∧ ((s.driver d).en = false →
          s.cfg.statusLayout.sg.get view = 0 ∧ s.cfg.statusLayout.sg.AgreesOutside view (s.driver d).live)
      ∧ view.toNat < 2 ^ s.cfg.wordBits ∧ (s.driver d).minLoad.toNat < 2 ^ s.cfg.loadBits
      ∧ (s.driver d).maxLoad.toNat < 2 ^ s.cfg.loadBits
      ∧ val.toNat = view.toNat + 2 ^ s.cfg.wordBits * (s.driver d).minLoad.toNat
          + 2 ^ (s.cfg.wordBits + s.cfg.loadBits) * (s.driver d).maxLoad.toNat
          + 2 ^ (s.cfg.wordBits + 2 * s.cfg.loadBits)
            * (if (s.driver d).minLoad.toNat ≤ (s.driver d).maxLoad.toNat then 1 else 0)

/-- 41_status_accumulator.md R137, 30_encoding.md R87: the stall configuration of the record, nothing written. The payload of
slot 4 is that of its mask, 17 bits in the reference layout (the model's choice for another mask, log entry 27). -/
def Obligations.AppendStallConfigResult : Prop :=
  ∀ (s : State) (d : Nat), s.cfg.Valid → d < s.n →
    ∃ val : BitVec 64, exec (.appendStallConfig d) s = .next { s with resp := some ⟨true, val⟩ }
      ∧ (val.extractLsb' 0 7).toNat = s.cfg.slotLayout.sgt.get (s.driver d).reg.stallGuardConfig
      ∧ (val.extractLsb' 7 1).toNat = s.cfg.slotLayout.sfilt.get (s.driver d).reg.stallGuardConfig
      ∧ val.extractLsb' 8 maxWordBits = (s.driver d).reg.smartEnable &&& s.cfg.payloadMask.smartEnable
      ∧ val.extractLsb' 32 32 = (s.driver d).maxIv

/-- 41_status_accumulator.md R135 b and c: after a powered COMPLETE for `d`, the live word is contained in the accumulated
one, and it has the stall bit only if the gate passed and the word received had it. -/
def Obligations.LiveContainedInAccumulated : Prop :=
  ∀ (s t : State) (rx : Word) (iv : BitVec 32) (d : Nat), s.cfg.Valid → s.Shaped → s.powered = true →
    s.cur = some d → d < s.n → exec (.complete rx iv) s = .next t →
    (t.driver d).live &&& ~~~(t.driver d).acc = 0
    ∧ (s.cfg.statusLayout.sg.get (t.driver d).live ≠ 0 →
        iv.toNat ≠ 0 ∧ iv.toNat ≤ (s.driver d).maxIv.toNat ∧ s.cfg.statusLayout.sg.get rx ≠ 0)

/-- 41_status_accumulator.md R135 a: apart from `Init`, `ReadAccumulatedStatus d` and `Enable d, 1`, no operation takes a bit
from `acc[d]`. -/
def Obligations.AccumulatedBitsAreSticky : Prop :=
  ∀ (i : Instr) (s t : State) (d b : Nat), exec i s = .next t →
    (∀ count, i ≠ .init count) → (∀ mask, i ≠ .readAccumulatedStatus d mask) → i ≠ .enable d true →
    (s.driver d).acc.getLsbD b = true → (t.driver d).acc.getLsbD b = true

/-- 41_status_accumulator.md R139: two powered COMPLETEs that differ only in the word received leave states that differ
only in the status words of the driver that owned the bus (and in its load window, if the load readings differ); their traces
differ in the word received alone. -/
def Obligations.ChipFaultsChangeOnlyTheStatus : Prop :=
  ∀ (s t u : State) (rx ry : Word) (iv : BitVec 32) (d : Nat), s.cur = some d →
    exec (.complete rx iv) s = .next t → exec (.complete ry iv) s = .next u →
    u.cfg = t.cfg ∧ u.n = t.n ∧ u.inited = t.inited ∧ u.powered = t.powered ∧ u.cur = t.cur ∧ u.irqEn = t.irqEn
    ∧ u.inputs = t.inputs ∧ u.resp = t.resp ∧ u.ports = t.ports
    ∧ u.trace.map BusEvent.withoutStatus = t.trace.map BusEvent.withoutStatus
    ∧ (∀ e, e ≠ d → u.driver e = t.driver e)
    ∧ { u.driver d with live := 0, acc := 0, minLoad := 0, maxLoad := 0 }
        = { t.driver d with live := 0, acc := 0, minLoad := 0, maxLoad := 0 }
    ∧ (s.cfg.statusLayout.load.get rx = s.cfg.statusLayout.load.get ry →
        (u.driver d).minLoad = (t.driver d).minLoad ∧ (u.driver d).maxLoad = (t.driver d).maxLoad)

/-- 41_status_accumulator.md R138: standstill hides exactly the benign flags, and no other flag is hidden. -/
def Obligations.StandstillHidesOnlyBenignItems : Prop :=
  ∀ (c : Cfg) (v : Word) (f : StatusFlag),
    f ∈ c.statusItems v ↔
      c.flagSet f v = true ∧ (f = .stst ∨ ¬ (c.flagSet .stst v = true ∧ f ∈ c.benign))

/-! ### The scheduler (40_transfer_scheduler.md) -/

/-- 40_transfer_scheduler.md R112: the selector answers the lowest-indexed pending slot, and START clears that bit and no
other. -/
def Obligations.SelectorIsFixedPriority : Prop :=
  ∀ p : Pending, p ≠ 0 →
    ∃ sl : Slot, Pending.lowestSet p = some sl ∧ Pending.isMarked p sl = true
      ∧ (∀ u : Slot, u.index < sl.index → Pending.isMarked p u = false)
      ∧ (∀ (d : Nat) (s : State), (s.driver d).pend = p → d < s.drivers.length →
          ((startTransfer d s).driver d).pend = p &&& ~~~(1#5 <<< sl.index)
          ∧ ∀ u : Slot, sl.index < u.index →
            Pending.isMarked ((startTransfer d s).driver d).pend u = Pending.isMarked p u)

/-- 40_transfer_scheduler.md R111, R113, 41_status_accumulator.md R130, R132: a powered COMPLETE merges the word received, asks
Motion once, and starts the next driver's transfer in the same step. -/
def Obligations.CompleteAccumulatesAndAdvances : Prop :=
  ∀ (s : State) (rx : Word) (iv : BitVec 32) (d : Nat), s.cfg.Valid → s.Shaped → s.cur = some d → d < s.n →
    s.irqEn = true → s.powered = true →
    ∃ t kind word left, exec (.complete rx iv) s = .next t ∧ t.resp = none
      ∧ t.cur = some ((d + 1) % s.n)
      ∧ (s.driver ((d + 1) % s.n)).Sends kind word left
      ∧ (t.driver ((d + 1) % s.n)).pend = left
      ∧ (∀ e, e ≠ (d + 1) % s.n → (t.driver e).pend = (s.driver e).pend)
      ∧ (t.driver d).acc = (s.driver d).acc ||| (t.driver d).live
      ∧ s.cfg.statusLayout.sg.AgreesOutside (t.driver d).live rx
      ∧ (if iv.toNat ≠ 0 ∧ iv.toNat ≤ (s.driver d).maxIv.toNat then
          (t.driver d).live = rx
          ∧ (t.driver d).minLoad.toNat = min (s.driver d).minLoad.toNat (s.cfg.statusLayout.load.get rx)
          ∧ (t.driver d).maxLoad.toNat = max (s.driver d).maxLoad.toNat (s.cfg.statusLayout.load.get rx)
        else
          s.cfg.statusLayout.sg.get (t.driver d).live = 0
          ∧ (t.driver d).minLoad = (s.driver d).minLoad ∧ (t.driver d).maxLoad = (s.driver d).maxLoad)
      ∧ (∀ e, { t.driver e with pend := 0, live := 0, acc := 0, minLoad := 0, maxLoad := 0 }
          = { s.driver e with pend := 0, live := 0, acc := 0, minLoad := 0, maxLoad := 0 })
      ∧ (∀ e, e ≠ d → { t.driver e with pend := 0 } = { s.driver e with pend := 0 })
      ∧ t.drivers.length = s.drivers.length
      ∧ t.trace = s.trace ++ [.rx d rx iv, .tx ((d + 1) % s.n) kind word]
      ∧ t.ports = s.ports ++ [.busEnd (s.cfg.select d),
          .stepIntervalQuery (s.cfg.axis d) (s.driver d).mshift iv, .busStart (s.cfg.select ((d + 1) % s.n)) word]
      ∧ t.cfg = s.cfg ∧ t.n = s.n ∧ t.inited = s.inited ∧ t.powered = true ∧ t.irqEn = true ∧ t.inputs = s.inputs

/-- 40_transfer_scheduler.md R113 unpowered branch, corner cases b and c: the chain stops, the word received is discarded,
Motion is not asked, no record changes. -/
def Obligations.CompleteUnpoweredHalts : Prop :=
  ∀ (s : State) (rx : Word) (iv : BitVec 32) (d : Nat), s.cur = some d → s.irqEn = true → s.powered = false →
    exec (.complete rx iv) s = .next { s with
      cur := none, irqEn := false, resp := none
      trace := s.trace ++ [.halt d], ports := s.ports ++ [.busEnd (s.cfg.select d)] }

/-- 30_encoding.md R88 d, 40_transfer_scheduler.md R113: COMPLETE has no step exactly when no transfer is in flight or the
completion interrupt is disabled. That the model stops with a fault there is its choice (log entry 7). -/
def Obligations.CompleteHasNoStepUnlessEnabled : Prop :=
  ∀ (s : State) (rx : Word) (iv : BitVec 32),
    (exec (.complete rx iv) s = .fault .completeNotEnabled ↔ s.cur = none ∨ s.irqEn = false)
    ∧ (s.completeEnabled = true → ∃ t, exec (.complete rx iv) s = .next t)

/-- 40_transfer_scheduler.md R114: the three ways `cur` changes, and no other. -/
def Obligations.CurChangesInThreeWays : Prop :=
  ∀ (i : Instr) (s t : State), s.Inv → exec i s = .next t → t.cur ≠ s.cur →
    (∃ rx iv d, i = .complete rx iv ∧ s.powered = true ∧ s.cur = some d ∧ t.cur = some ((d + 1) % s.n))
    ∨ (∃ rx iv d, i = .complete rx iv ∧ s.powered = false ∧ s.cur = some d ∧ t.cur = none)
    ∨ (i = .spin true ∧ s.powered = false ∧ 0 < s.n ∧ s.cur = none ∧ t.cur = some 0)

/-- 10_state.md R23: a pending bit is cleared only by the START that transmits the slot's value, or by the reset input. -/
def Obligations.PendingClearedOnlyByTransmission : Prop :=
  ∀ (s t : State) (d : Nat) (sl : Slot), s.Inv → s.NoResetToCome → d < s.n → step s = .next t →
    Pending.isMarked (s.driver d).pend sl = true → Pending.isMarked (t.driver d).pend sl = false →
    .tx d (.slot sl) ((s.driver d).reg.get sl) ∈ s.traceSince t

/-- 10_state.md R22, R25: every word a step puts on the bus carries the tag of its slot, and the chopper word of a disabled
driver has off-time 0. -/
def Obligations.EveryWordSentCarriesItsTag : Prop :=
  ∀ (s t : State) (d : Nat) (kind : TxKind) (word : Word), s.Inv → step s = .next t →
    .tx d kind word ∈ s.traceSince t →
    d < t.n
    ∧ (∀ sl, kind = .slot sl → word &&& ~~~t.cfg.payloadMask.get sl = t.cfg.tag.get sl)
    ∧ (kind = .poll → word &&& ~~~t.cfg.payloadMask.smartEnable = t.cfg.tag.smartEnable)
    ∧ (kind = .slot .chopperControl → (t.driver d).en = false → t.cfg.slotLayout.toff.get word = 0)

/-- 20_memory.md R70, 42_config_operations.md R152: a second `SetCurrent` with no START between leaves exactly the state that
it alone would have left, so only its value can be sent. -/
def Obligations.SecondSetCurrentSupersedesTheFirst : Prop :=
  ∀ (s t : State) (d a b : Nat), exec (.setCurrent d a) s = .next t →
    exec (.setCurrent d b) t = exec (.setCurrent d b) s

/-- 20_memory.md R70, over any commands: between two COMPLETEs, however many setters marked a slot, the next START of it
sends the value the slot then holds, once, and leaves the bit clear. -/
def Obligations.NextStartSendsTheLastValue : Prop :=
  ∀ (s t u : State) (rx : Word) (iv : BitVec 32) (d : Nat) (sl : Slot) (k : Nat),
    s.Inv → s.NoResetToCome → s.powered = true → s.cur = some d →
    Host.Core.run Sys2Proof.core k s = .next t → t.trace = s.trace → t.powered = true →
    exec (.complete rx iv) t = .next u →
    Pending.isMarked (t.driver ((d + 1) % s.n)).pend sl = true →
    (∀ v : Slot, v.index < sl.index → Pending.isMarked (t.driver ((d + 1) % s.n)).pend v = false) →
    s.traceSince u = [.rx d rx iv, .tx ((d + 1) % s.n) (.slot sl) ((t.driver ((d + 1) % s.n)).reg.get sl)]
    ∧ Pending.isMarked (u.driver ((d + 1) % s.n)).pend sl = false

/-- 40_transfer_scheduler.md R114, R117, 10_state.md R30: over ANY run without reset in which the chain does not halt, whatever commands are
issued, the drivers are served strictly round-robin from the one after `cur`, every `N` consecutive STARTs serve each driver
exactly once, and `cur` is the last one served. -/
def Obligations.ServiceOrderIsRoundRobin : Prop :=
  ∀ (k : Nat) (s t : State) (d : Nat), s.Inv → s.NoResetToCome → s.cur = some d →
    Host.Core.run Sys2Proof.core k s = .next t → s.NoHaltSince t →
    startTargets (s.traceSince t)
        = ((List.range (startTargets (s.traceSince t)).length).map fun j => (d + 1 + j) % s.n)
    ∧ (∀ i e, i + s.n ≤ (startTargets (s.traceSince t)).length → e < s.n →
        (((startTargets (s.traceSince t)).drop i).take s.n).count e = 1)
    ∧ t.cur = some ((d + (startTargets (s.traceSince t)).length) % s.n)

/-- 40_transfer_scheduler.md R113, R117: while powered, `k` completions are all taken and start `k` transfers, round-robin;
nothing stops the chain. -/
def Obligations.PoweredChainNeverStops : Prop :=
  ∀ (events : List (Word × BitVec 32)) (s : State) (d : Nat) (rest : List Stimulus),
    s.Inv → s.powered = true → s.cur = some d → s.inputs = completions events ++ rest →
    ∃ t, Host.Core.run Sys2Proof.core events.length s = .next t
      ∧ t.inputs = rest ∧ t.powered = true ∧ t.irqEn = true
      ∧ t.cur = some ((d + events.length) % s.n)
      ∧ startTargets (s.traceSince t) = ((List.range events.length).map fun j => (d + 1 + j) % s.n)

/-- 40_transfer_scheduler.md R118 without commands: with no slot marked meanwhile, a pending slot of driver `e` is sent within
`k * N` STARTs, `k` being the number of slots pending for `e` up to it. -/
def Obligations.PendingSlotSentWithinItsBound : Prop :=
  ∀ (events : List (Word × BitVec 32)) (s : State) (d e : Nat) (sl : Slot) (rest : List Stimulus),
    s.Inv → s.powered = true → s.cur = some d → e < s.n →
    Pending.isMarked (s.driver e).pend sl = true →
    s.inputs = completions events ++ rest →
    events.length = pendingUpTo (s.driver e).pend sl * s.n →
    ∃ t, Host.Core.run Sys2Proof.core events.length s = .next t
      ∧ .tx e (.slot sl) ((s.driver e).reg.get sl) ∈ s.traceSince t
      ∧ Pending.isMarked (t.driver e).pend sl = false

/-- 40_transfer_scheduler.md R118, whatever commands are issued (and no reset): if no slot below `sl` of driver `e` is marked again, `sl` is
sent by the `k`-th START of `e`. -/
def Obligations.PendingSlotSentByItsTurn : Prop :=
  ∀ (m : Nat) (s t : State) (e : Nat) (sl : Slot), s.Inv → s.NoResetToCome → s.cur ≠ none → e < s.n →
    Pending.isMarked (s.driver e).pend sl = true →
    Host.Core.run Sys2Proof.core m s = .next t → s.NoHaltSince t →
    (∀ (j : Nat) (a b : State) (u : Slot), j < m → Host.Core.run Sys2Proof.core j s = .next a →
        Host.Core.run Sys2Proof.core (j + 1) s = .next b → u.index < sl.index →
        Pending.isMarked (a.driver e).pend u = false → Pending.isMarked (b.driver e).pend u = false) →
    pendingUpTo (s.driver e).pend sl ≤ (startTargets (s.traceSince t)).count e →
    ∃ word, .tx e (.slot sl) word ∈ s.traceSince t

/-! ### The boundary (60_exceptions.md R198, R205) -/

/-- 10_state.md R35, 40_transfer_scheduler.md R115: at most one select line is asserted among the drivers in range, and it is
the one of `cur`; `drv_enable` follows `powered`. -/
def Obligations.AtMostOneSelectAsserted : Prop :=
  ∀ (s : State) (d e : Nat), s.Inv → d < s.n → e < s.n →
    (s.selectLine (s.cfg.select d) = true ↔ s.cur = some d)
    ∧ (s.selectLine (s.cfg.select d) = true → s.selectLine (s.cfg.select e) = true → d = e)
    ∧ s.drvEnable = s.powered

/-- 60_exceptions.md R198: arrivals of one cycle are taken `force_off` first, then the completion, then the command. -/
def Obligations.SameCycleOrder : Prop :=
  ∀ (rx : Word) (iv : BitVec 32) (w : StimulusWord),
    PortCycle.serialise ⟨true, some (rx, iv), some w⟩ = [.forceOffStrobe, .word (encode (.complete rx iv)), .word w]
    ∧ PortCycle.serialise ⟨false, some (rx, iv), some w⟩ = [.word (encode (.complete rx iv)), .word w]
    ∧ PortCycle.serialise ⟨true, none, some w⟩ = [.forceOffStrobe, .word w]
    ∧ PortCycle.serialise ⟨true, some (rx, iv), none⟩ = [.forceOffStrobe, .word (encode (.complete rx iv))]
end

