-- ==== Sys2Proof/Laws/Fields.lean ====
section
/-! SUPPORT. What reading and writing bit fields, slots and pending bits does. -/

namespace Sys2Proof

/-! ### Bit fields -/

theorem Field.getLsbD_mask (f : Field) (i : Nat) :
    f.mask.getLsbD i = decide (f.lo ≤ i ∧ i < f.lo + f.width ∧ i < maxWordBits) := by
  unfold Field.mask
  rw [BitVec.getLsbD_shiftLeft, BitVec.getLsbD_ofNat, Nat.testBit_two_pow_sub_one]
  rw [Bool.eq_iff_iff]
  simp only [Bool.and_eq_true, decide_eq_true_eq, Bool.not_eq_true']
  simp only [decide_eq_false_iff_not, maxWordBits]
  omega

theorem Field.getLsbD_set (f : Field) (w : Word) (v i : Nat) (hi : i < maxWordBits) :
    (f.set w v).getLsbD i =
      if f.lo ≤ i ∧ i < f.lo + f.width then v.testBit (i - f.lo) else w.getLsbD i := by
  have h24 : maxWordBits = 24 := rfl
  simp only [Field.set, BitVec.getLsbD_or, BitVec.getLsbD_and, BitVec.getLsbD_not, Field.getLsbD_mask,
    BitVec.getLsbD_shiftLeft, BitVec.getLsbD_ofNat]
  by_cases h : f.lo ≤ i ∧ i < f.lo + f.width
  · have h2 : ¬ i < f.lo := by omega
    have h3 : i - f.lo < maxWordBits := by omega
    simp [h, hi, h2, h3]
  · simp [h, hi]

theorem Field.testBit_get (f : Field) (w : Word) (i : Nat) (hf : f.lo + f.width ≤ maxWordBits) :
    (f.get w).testBit i = (decide (i < f.width) && w.getLsbD (f.lo + i)) := by
  simp only [Field.get, BitVec.testBit_toNat, BitVec.getLsbD_ushiftRight, BitVec.getLsbD_and, Field.getLsbD_mask]
  rw [Bool.and_comm]
  congr 1
  rw [decide_eq_decide]
  omega

/-- A field holds what was written to it, truncated to its width (00_scope.md R11). -/
theorem Field.get_set_same (f : Field) (w : Word) (v : Nat) (hf : f.lo + f.width ≤ maxWordBits) :
    f.get (f.set w v) = v % 2 ^ f.width := by
  refine Nat.eq_of_testBit_eq fun i => ?_
  rw [Field.testBit_get f _ i hf, Nat.testBit_mod_two_pow]
  by_cases h : i < f.width
  · have h1 : f.lo + i < maxWordBits := by omega
    rw [Field.getLsbD_set f w v _ h1]
    simp [h]
  · simp [h]

/-- Writing a field leaves a disjoint field unchanged (00_scope.md R11). -/
theorem Field.get_set_disjoint {f g : Field} (w : Word) (v : Nat) (h : f.Disjoint g) :
    f.get (g.set w v) = f.get w := by
  unfold Field.get
  congr 2
  refine BitVec.eq_of_getLsbD_eq fun i hi => ?_
  have hb : (f.mask.getLsbD i && g.mask.getLsbD i) = false := by
    rw [← BitVec.getLsbD_and, h]; simp
  rw [BitVec.getLsbD_and, BitVec.getLsbD_and, Field.getLsbD_set g w v i hi]
  split
  · rename_i hg
    have hgm : g.mask.getLsbD i = true := by rw [Field.getLsbD_mask]; simp [hg, hi]
    rw [hgm] at hb
    simp at hb
    simp [hb]
  · rfl

/-- Writing a field leaves every bit outside it unchanged (00_scope.md R11). -/
theorem Field.set_and_outside (f : Field) (w m : Word) (v : Nat) (h : f.mask &&& m = 0) :
    f.set w v &&& m = w &&& m := by
  refine BitVec.eq_of_getLsbD_eq fun i hi => ?_
  have hb : (f.mask.getLsbD i && m.getLsbD i) = false := by
    rw [← BitVec.getLsbD_and, h]; simp
  rw [BitVec.getLsbD_and, BitVec.getLsbD_and, Field.getLsbD_set f w v i hi]
  split
  · rename_i hg
    have hgm : f.mask.getLsbD i = true := by rw [Field.getLsbD_mask]; simp [hg, hi]
    rw [hgm] at hb
    simp at hb
    simp [hb]
  · rfl

/-- The last write of a field wins. -/
theorem Field.set_set (f : Field) (w : Word) (u v : Nat) :
    f.set (f.set w u) v = f.set w v := by
  refine BitVec.eq_of_getLsbD_eq fun i hi => ?_
  rw [Field.getLsbD_set f _ v i hi, Field.getLsbD_set f _ v i hi, Field.getLsbD_set f _ u i hi]
  split <;> rfl

/-- Writes of disjoint fields commute. -/
theorem Field.set_comm {f g : Field} (w : Word) (u v : Nat) (h : f.Disjoint g) :
    f.set (g.set w v) u = g.set (f.set w u) v := by
  refine BitVec.eq_of_getLsbD_eq fun i hi => ?_
  have hb : (f.mask.getLsbD i && g.mask.getLsbD i) = false := by
    rw [← BitVec.getLsbD_and, h]; simp
  rw [Field.getLsbD_mask, Field.getLsbD_mask] at hb
  rw [Field.getLsbD_set f _ u i hi, Field.getLsbD_set g _ v i hi, Field.getLsbD_set g _ v i hi,
    Field.getLsbD_set f _ u i hi]
  split
  · rename_i hf
    have hg : ¬ (g.lo ≤ i ∧ i < g.lo + g.width) := by
      intro hg
      simp [hf, hg, hi] at hb
    simp [hg]
  · rfl

/-- A field's value fits its width. -/
theorem Field.get_lt (f : Field) (w : Word) (hf : f.lo + f.width ≤ maxWordBits) :
    f.get w < 2 ^ f.width := by
  refine Nat.lt_pow_two_of_testBit _ fun i hi => ?_
  rw [Field.testBit_get f w i hf]
  simp; omega

/-- Writing back what a field holds changes nothing. -/
theorem Field.set_get (f : Field) (w : Word) (hf : f.lo + f.width ≤ maxWordBits) :
    f.set w (f.get w) = w := by
  refine BitVec.eq_of_getLsbD_eq fun i hi => ?_
  rw [Field.getLsbD_set f w _ i hi]
  split
  · rename_i h
    rw [Field.testBit_get f w _ hf]
    have h1 : i - f.lo < f.width := by omega
    have h2 : f.lo + (i - f.lo) = i := by omega
    simp [h1, h2]
  · rfl

theorem Field.Inside.fits {f : Field} {m : Word} (h : f.Inside m) : f.lo + f.width ≤ maxWordBits := h.2.1

theorem Field.Disjoint.symm {f g : Field} (h : f.Disjoint g) : g.Disjoint f := by
  unfold Field.Disjoint at *
  rw [BitVec.and_comm]; exact h

/-- Writing a field inside a slot's payload keeps the slot's tag bits (10_state.md R22). -/
theorem Field.Inside.set_tag {f : Field} {m : Word} (h : f.Inside m) (w : Word) (v : Nat) :
    f.set w v &&& ~~~m = w &&& ~~~m :=
  Field.set_and_outside f w _ v h.2.2

/-- The `W` low bits (00_scope.md R5). -/
theorem Cfg.getLsbD_wordMask (c : Cfg) (i : Nat) :
    c.wordMask.getLsbD i = decide (i < c.wordBits ∧ i < maxWordBits) := by
  unfold Cfg.wordMask
  rw [BitVec.getLsbD_ofNat, Nat.testBit_two_pow_sub_one, Bool.eq_iff_iff]
  simp only [Bool.and_eq_true, decide_eq_true_eq]
  omega

/-- A word with no bit outside a mask is what the mask leaves of it. -/
theorem and_eq_of_outside {v m : Word} (h : v &&& ~~~m = 0) : v &&& m = v := by
  refine BitVec.eq_of_getLsbD_eq fun i hi => ?_
  have hb : (v &&& ~~~m).getLsbD i = false := by rw [h]; simp
  simp only [BitVec.getLsbD_and, BitVec.getLsbD_not, hi, decide_true, Bool.true_and] at hb
  cases hv : v.getLsbD i <;> simp_all

/-- What a mask leaves of a word has no bit outside it. -/
theorem and_outside (v m : Word) : (v &&& m) &&& ~~~m = 0 := by
  refine BitVec.eq_of_getLsbD_eq fun i hi => ?_
  simp only [BitVec.getLsbD_and, BitVec.getLsbD_not]
  cases m.getLsbD i <;> simp

/-- A field inside a mask of `W` bits ends at `W` at the latest. -/
theorem Field.Inside.le_wordBits {f : Field} {c : Cfg} (h : f.Inside c.wordMask) : f.lo + f.width ≤ c.wordBits := by
  obtain ⟨hpos, hle, hin⟩ := h
  have hb : (f.mask &&& ~~~c.wordMask).getLsbD (f.lo + f.width - 1) = false := by rw [hin]; simp
  have h1 : f.lo + f.width - 1 < maxWordBits := by omega
  rw [BitVec.getLsbD_and, BitVec.getLsbD_not, Field.getLsbD_mask, Cfg.getLsbD_wordMask] at hb
  have h2 : f.lo ≤ f.lo + f.width - 1 ∧ f.lo + f.width - 1 < f.lo + f.width ∧ f.lo + f.width - 1 < maxWordBits := by omega
  simp only [h2, decide_true, Bool.true_and, and_true] at hb
  simp only [Bool.not_eq_false', decide_eq_true_eq] at hb
  omega

/-- The bits of a field. -/
def Field.bits (f : Field) : List Nat :=
  List.range' f.lo f.width

/-- Disjoint fields have no common bit. -/
theorem Field.Disjoint.bits {f g : Field} (h : f.Disjoint g) (hf : f.lo + f.width ≤ maxWordBits) :
    f.bits.Disjoint g.bits := by
  intro i hi hj
  simp only [Field.bits, List.mem_range'_1] at hi hj
  have hb : (f.mask &&& g.mask).getLsbD i = false := by rw [h]; simp
  have h1 : i < maxWordBits := by omega
  rw [BitVec.getLsbD_and, Field.getLsbD_mask, Field.getLsbD_mask] at hb
  simp [hi, hj, h1] at hb

/-- Disjoint fields of a `W`-bit word have at most `W` bits together (00_scope.md R5). -/
theorem Field.sum_width_le {c : Cfg} {fields : List Field} (hi : ∀ f ∈ fields, f.Inside c.wordMask)
    (hd : fields.Pairwise Field.Disjoint) : (fields.map Field.width).sum ≤ c.wordBits := by
  have hn : (fields.flatMap Field.bits).Nodup :=
    List.nodup_flatMap.2 ⟨fun f _ => List.nodup_range', hd.imp_of_mem fun hf _ h => h.bits (hi _ hf).2.1⟩
  have hs : fields.flatMap Field.bits ⊆ List.range c.wordBits := by
    intro i hm
    obtain ⟨f, hf, hb⟩ := List.mem_flatMap.1 hm
    have := (hi f hf).le_wordBits
    simp only [Field.bits, List.mem_range'_1] at hb
    rw [List.mem_range]
    omega
  have hl := (hn.subperm hs).length_le
  simpa [List.length_flatMap, Field.bits] using hl

/-- The seven flags of a status word leave `LoadBits` at most `W - 7` (00_scope.md R5), so the report of 30_encoding.md R87
fits its 64 bits. -/
theorem Cfg.Valid.loadBits_add_le {c : Cfg} (h : c.Valid) : c.loadBits + 7 ≤ c.wordBits := by
  have hs := Field.sum_width_le h.statusLayout.inside h.statusLayout.disjoint
  have hi := h.statusLayout.inside
  have hw := h.statusLayout.load_width
  simp only [StatusLayout.fields, List.mem_cons, List.not_mem_nil, or_false, forall_eq_or_imp, forall_eq] at hi
  obtain ⟨i1, i2, i3, i4, i5, i6, i7, -⟩ := hi
  have := i1.1; have := i2.1; have := i3.1; have := i4.1; have := i5.1; have := i6.1; have := i7.1
  simp only [StatusLayout.fields, List.map_cons, List.map_nil, List.sum_cons, List.sum_nil] at hs
  omega

/-! ### Slots -/

@[simp] theorem Slots.get_set_same {α : Type} (r : Slots α) (s : Slot) (v : α) : (r.set s v).get s = v := by
  cases s <;> rfl

theorem Slots.get_set_other {α : Type} (r : Slots α) {s t : Slot} (v : α) (h : t ≠ s) :
    (r.set s v).get t = r.get t := by
  cases s <;> cases t <;> first | rfl | exact absurd rfl h

theorem Slots.set_set {α : Type} (r : Slots α) (s : Slot) (u v : α) : (r.set s u).set s v = r.set s v := by
  cases s <;> rfl

@[simp] theorem Slots.get_driveControl {α : Type} (r : Slots α) : r.get .driveControl = r.driveControl := rfl
@[simp] theorem Slots.get_stallGuardConfig {α : Type} (r : Slots α) :
    r.get .stallGuardConfig = r.stallGuardConfig := rfl
@[simp] theorem Slots.get_chopperControl {α : Type} (r : Slots α) : r.get .chopperControl = r.chopperControl := rfl
@[simp] theorem Slots.get_driveConfig {α : Type} (r : Slots α) : r.get .driveConfig = r.driveConfig := rfl
@[simp] theorem Slots.get_smartEnable {α : Type} (r : Slots α) : r.get .smartEnable = r.smartEnable := rfl

@[simp] theorem Slots.set_driveControl {α : Type} (r : Slots α) (v : α) : (r.set .driveControl v).driveControl = v := rfl
@[simp] theorem Slots.set_stallGuardConfig {α : Type} (r : Slots α) (v : α) : (r.set .stallGuardConfig v).stallGuardConfig = v := rfl
@[simp] theorem Slots.set_chopperControl {α : Type} (r : Slots α) (v : α) : (r.set .chopperControl v).chopperControl = v := rfl
@[simp] theorem Slots.set_driveConfig {α : Type} (r : Slots α) (v : α) : (r.set .driveConfig v).driveConfig = v := rfl
@[simp] theorem Slots.set_smartEnable {α : Type} (r : Slots α) (v : α) : (r.set .smartEnable v).smartEnable = v := rfl

theorem Slots.ext_get {α : Type} {r q : Slots α} (h : ∀ s, r.get s = q.get s) : r = q := by
  cases r; cases q
  simp only [Slots.mk.injEq]
  exact ⟨h .driveControl, h .stallGuardConfig, h .chopperControl, h .driveConfig, h .smartEnable⟩

/-! ### Pending bits -/

/-- Marking a slot sets its bit and no other (20_memory.md R72 a). -/
theorem Pending.isMarked_mark (p : Pending) (s t : Slot) :
    Pending.isMarked (Pending.mark p s) t = (decide (t = s) || Pending.isMarked p t) := by
  cases s <;> cases t <;> (revert p; decide)

/-- Clearing a slot clears its bit and no other (20_memory.md R72 b). -/
theorem Pending.isMarked_unmark (p : Pending) (s t : Slot) :
    Pending.isMarked (Pending.unmark p s) t = (decide (t ≠ s) && Pending.isMarked p t) := by
  cases s <;> cases t <;> (revert p; decide)

@[simp] theorem Pending.isMarked_full (s : Slot) : Pending.isMarked Pending.full s = true := by
  cases s <;> rfl

/-- Five bits, no more: two bitmaps with the same marked slots are equal. -/
theorem Pending.ext_isMarked {p q : Pending} (h : ∀ s, Pending.isMarked p s = Pending.isMarked q s) : p = q := by
  refine BitVec.eq_of_getLsbD_eq fun i hi => ?_
  match i, hi with
  | 0, _ => exact h .driveControl
  | 1, _ => exact h .stallGuardConfig
  | 2, _ => exact h .chopperControl
  | 3, _ => exact h .driveConfig
  | 4, _ => exact h .smartEnable

/-- A slot the selector answers is pending. -/
theorem Pending.isMarked_of_lowestSet {p : Pending} {s : Slot} (h : Pending.lowestSet p = some s) :
    Pending.isMarked p s = true := by
  have := List.find?_some h
  simpa using this

theorem Pending.lowestSet_zero : Pending.lowestSet 0 = none := by decide

end Sys2Proof
end

