-- ==== Sys2Proof/Laws/State.lean ====
section
/-! SUPPORT. One lemma per field per update of the state and of a per-driver record, each true by unfolding once, so that
no later proof unfolds a record update. -/

namespace Sys2Proof.Machine

/-! ### `State.updateDriver` -/

@[simp] theorem State.updateDriver_cfg (s : State) (d : Nat) (f : Driver → Driver) :
    (s.updateDriver d f).cfg = s.cfg := rfl

@[simp] theorem State.updateDriver_n (s : State) (d : Nat) (f : Driver → Driver) :
    (s.updateDriver d f).n = s.n := rfl

@[simp] theorem State.updateDriver_inited (s : State) (d : Nat) (f : Driver → Driver) :
    (s.updateDriver d f).inited = s.inited := rfl

@[simp] theorem State.updateDriver_powered (s : State) (d : Nat) (f : Driver → Driver) :
    (s.updateDriver d f).powered = s.powered := rfl

@[simp] theorem State.updateDriver_cur (s : State) (d : Nat) (f : Driver → Driver) :
    (s.updateDriver d f).cur = s.cur := rfl

@[simp] theorem State.updateDriver_irqEn (s : State) (d : Nat) (f : Driver → Driver) :
    (s.updateDriver d f).irqEn = s.irqEn := rfl

@[simp] theorem State.updateDriver_drivers (s : State) (d : Nat) (f : Driver → Driver) :
    (s.updateDriver d f).drivers = s.drivers.modify d f := rfl

@[simp] theorem State.updateDriver_inputs (s : State) (d : Nat) (f : Driver → Driver) :
    (s.updateDriver d f).inputs = s.inputs := rfl

@[simp] theorem State.updateDriver_resp (s : State) (d : Nat) (f : Driver → Driver) :
    (s.updateDriver d f).resp = s.resp := rfl

@[simp] theorem State.updateDriver_trace (s : State) (d : Nat) (f : Driver → Driver) :
    (s.updateDriver d f).trace = s.trace := rfl

@[simp] theorem State.updateDriver_ports (s : State) (d : Nat) (f : Driver → Driver) :
    (s.updateDriver d f).ports = s.ports := rfl

/-! ### `State.updateFirst` -/

@[simp] theorem State.updateFirst_cfg (s : State) (n : Nat) (f : Driver → Driver) :
    (s.updateFirst n f).cfg = s.cfg := rfl

@[simp] theorem State.updateFirst_n (s : State) (n : Nat) (f : Driver → Driver) :
    (s.updateFirst n f).n = s.n := rfl

@[simp] theorem State.updateFirst_inited (s : State) (n : Nat) (f : Driver → Driver) :
    (s.updateFirst n f).inited = s.inited := rfl

@[simp] theorem State.updateFirst_powered (s : State) (n : Nat) (f : Driver → Driver) :
    (s.updateFirst n f).powered = s.powered := rfl

@[simp] theorem State.updateFirst_cur (s : State) (n : Nat) (f : Driver → Driver) :
    (s.updateFirst n f).cur = s.cur := rfl

@[simp] theorem State.updateFirst_irqEn (s : State) (n : Nat) (f : Driver → Driver) :
    (s.updateFirst n f).irqEn = s.irqEn := rfl

@[simp] theorem State.updateFirst_drivers (s : State) (n : Nat) (f : Driver → Driver) :
    (s.updateFirst n f).drivers = (s.drivers.take n).map f ++ s.drivers.drop n := rfl

@[simp] theorem State.updateFirst_inputs (s : State) (n : Nat) (f : Driver → Driver) :
    (s.updateFirst n f).inputs = s.inputs := rfl

@[simp] theorem State.updateFirst_resp (s : State) (n : Nat) (f : Driver → Driver) :
    (s.updateFirst n f).resp = s.resp := rfl

@[simp] theorem State.updateFirst_trace (s : State) (n : Nat) (f : Driver → Driver) :
    (s.updateFirst n f).trace = s.trace := rfl

@[simp] theorem State.updateFirst_ports (s : State) (n : Nat) (f : Driver → Driver) :
    (s.updateFirst n f).ports = s.ports := rfl

/-! ### `State.respond` -/

@[simp] theorem State.respond_cfg (s : State) (ok : Bool) (val : BitVec 64) :
    (s.respond ok val).cfg = s.cfg := rfl

@[simp] theorem State.respond_n (s : State) (ok : Bool) (val : BitVec 64) :
    (s.respond ok val).n = s.n := rfl

@[simp] theorem State.respond_inited (s : State) (ok : Bool) (val : BitVec 64) :
    (s.respond ok val).inited = s.inited := rfl

@[simp] theorem State.respond_powered (s : State) (ok : Bool) (val : BitVec 64) :
    (s.respond ok val).powered = s.powered := rfl

@[simp] theorem State.respond_cur (s : State) (ok : Bool) (val : BitVec 64) :
    (s.respond ok val).cur = s.cur := rfl

@[simp] theorem State.respond_irqEn (s : State) (ok : Bool) (val : BitVec 64) :
    (s.respond ok val).irqEn = s.irqEn := rfl

@[simp] theorem State.respond_drivers (s : State) (ok : Bool) (val : BitVec 64) :
    (s.respond ok val).drivers = s.drivers := rfl

@[simp] theorem State.respond_inputs (s : State) (ok : Bool) (val : BitVec 64) :
    (s.respond ok val).inputs = s.inputs := rfl

@[simp] theorem State.respond_resp (s : State) (ok : Bool) (val : BitVec 64) :
    (s.respond ok val).resp = some ⟨ok, val⟩ := rfl

@[simp] theorem State.respond_trace (s : State) (ok : Bool) (val : BitVec 64) :
    (s.respond ok val).trace = s.trace := rfl

@[simp] theorem State.respond_ports (s : State) (ok : Bool) (val : BitVec 64) :
    (s.respond ok val).ports = s.ports := rfl

/-! ### `State.fail` -/

@[simp] theorem State.fail_cfg (s : State) :
    (s.fail).cfg = s.cfg := rfl

@[simp] theorem State.fail_n (s : State) :
    (s.fail).n = s.n := rfl

@[simp] theorem State.fail_inited (s : State) :
    (s.fail).inited = s.inited := rfl

@[simp] theorem State.fail_powered (s : State) :
    (s.fail).powered = s.powered := rfl

@[simp] theorem State.fail_cur (s : State) :
    (s.fail).cur = s.cur := rfl

@[simp] theorem State.fail_irqEn (s : State) :
    (s.fail).irqEn = s.irqEn := rfl

@[simp] theorem State.fail_drivers (s : State) :
    (s.fail).drivers = s.drivers := rfl

@[simp] theorem State.fail_inputs (s : State) :
    (s.fail).inputs = s.inputs := rfl

@[simp] theorem State.fail_resp (s : State) :
    (s.fail).resp = some ⟨false, 0⟩ := rfl

@[simp] theorem State.fail_trace (s : State) :
    (s.fail).trace = s.trace := rfl

@[simp] theorem State.fail_ports (s : State) :
    (s.fail).ports = s.ports := rfl

/-! ### `State.noResponse` -/

@[simp] theorem State.noResponse_cfg (s : State) :
    (s.noResponse).cfg = s.cfg := rfl

@[simp] theorem State.noResponse_n (s : State) :
    (s.noResponse).n = s.n := rfl

@[simp] theorem State.noResponse_inited (s : State) :
    (s.noResponse).inited = s.inited := rfl

@[simp] theorem State.noResponse_powered (s : State) :
    (s.noResponse).powered = s.powered := rfl

@[simp] theorem State.noResponse_cur (s : State) :
    (s.noResponse).cur = s.cur := rfl

@[simp] theorem State.noResponse_irqEn (s : State) :
    (s.noResponse).irqEn = s.irqEn := rfl

@[simp] theorem State.noResponse_drivers (s : State) :
    (s.noResponse).drivers = s.drivers := rfl

@[simp] theorem State.noResponse_inputs (s : State) :
    (s.noResponse).inputs = s.inputs := rfl

@[simp] theorem State.noResponse_resp (s : State) :
    (s.noResponse).resp = none := rfl

@[simp] theorem State.noResponse_trace (s : State) :
    (s.noResponse).trace = s.trace := rfl

@[simp] theorem State.noResponse_ports (s : State) :
    (s.noResponse).ports = s.ports := rfl

/-! ### `State.idle` -/

@[simp] theorem State.idle_cfg (s : State) :
    (s.idle).cfg = s.cfg := rfl

@[simp] theorem State.idle_n (s : State) :
    (s.idle).n = s.n := rfl

@[simp] theorem State.idle_inited (s : State) :
    (s.idle).inited = s.inited := rfl

@[simp] theorem State.idle_powered (s : State) :
    (s.idle).powered = s.powered := rfl

@[simp] theorem State.idle_cur (s : State) :
    (s.idle).cur = s.cur := rfl

@[simp] theorem State.idle_irqEn (s : State) :
    (s.idle).irqEn = s.irqEn := rfl

@[simp] theorem State.idle_drivers (s : State) :
    (s.idle).drivers = s.drivers := rfl

@[simp] theorem State.idle_inputs (s : State) :
    (s.idle).inputs = s.inputs := rfl

@[simp] theorem State.idle_resp (s : State) :
    (s.idle).resp = none := rfl

@[simp] theorem State.idle_trace (s : State) :
    (s.idle).trace = s.trace := rfl

@[simp] theorem State.idle_ports (s : State) :
    (s.idle).ports = s.ports := rfl

/-! ### `State.reservedOpcode` -/

@[simp] theorem State.reservedOpcode_cfg (s : State) :
    (s.reservedOpcode).cfg = s.cfg := rfl

@[simp] theorem State.reservedOpcode_n (s : State) :
    (s.reservedOpcode).n = s.n := rfl

@[simp] theorem State.reservedOpcode_inited (s : State) :
    (s.reservedOpcode).inited = s.inited := rfl

@[simp] theorem State.reservedOpcode_powered (s : State) :
    (s.reservedOpcode).powered = s.powered := rfl

@[simp] theorem State.reservedOpcode_cur (s : State) :
    (s.reservedOpcode).cur = s.cur := rfl

@[simp] theorem State.reservedOpcode_irqEn (s : State) :
    (s.reservedOpcode).irqEn = s.irqEn := rfl

@[simp] theorem State.reservedOpcode_drivers (s : State) :
    (s.reservedOpcode).drivers = s.drivers := rfl

@[simp] theorem State.reservedOpcode_inputs (s : State) :
    (s.reservedOpcode).inputs = s.inputs := rfl

@[simp] theorem State.reservedOpcode_resp (s : State) :
    (s.reservedOpcode).resp = some ⟨false, 0⟩ := rfl

@[simp] theorem State.reservedOpcode_trace (s : State) :
    (s.reservedOpcode).trace = s.trace := rfl

@[simp] theorem State.reservedOpcode_ports (s : State) :
    (s.reservedOpcode).ports = s.ports := rfl

/-! ### `State.resetByInput` -/

@[simp] theorem State.resetByInput_cfg (s : State) :
    (s.resetByInput).cfg = s.cfg := rfl

@[simp] theorem State.resetByInput_n (s : State) :
    (s.resetByInput).n = 0 := rfl

@[simp] theorem State.resetByInput_inited (s : State) :
    (s.resetByInput).inited = false := rfl

@[simp] theorem State.resetByInput_powered (s : State) :
    (s.resetByInput).powered = false := rfl

@[simp] theorem State.resetByInput_cur (s : State) :
    (s.resetByInput).cur = none := rfl

@[simp] theorem State.resetByInput_irqEn (s : State) :
    (s.resetByInput).irqEn = false := rfl

@[simp] theorem State.resetByInput_drivers (s : State) :
    (s.resetByInput).drivers = List.replicate s.cfg.maxDrivers Driver.blank := rfl

@[simp] theorem State.resetByInput_inputs (s : State) :
    (s.resetByInput).inputs = s.inputs := rfl

@[simp] theorem State.resetByInput_resp (s : State) :
    (s.resetByInput).resp = none := rfl

@[simp] theorem State.resetByInput_trace (s : State) :
    (s.resetByInput).trace = s.trace := rfl

@[simp] theorem State.resetByInput_ports (s : State) :
    (s.resetByInput).ports = s.ports := rfl

/-! ### `State.record` -/

@[simp] theorem State.record_cfg (s : State) (e : BusEvent) :
    (s.record e).cfg = s.cfg := rfl

@[simp] theorem State.record_n (s : State) (e : BusEvent) :
    (s.record e).n = s.n := rfl

@[simp] theorem State.record_inited (s : State) (e : BusEvent) :
    (s.record e).inited = s.inited := rfl

@[simp] theorem State.record_powered (s : State) (e : BusEvent) :
    (s.record e).powered = s.powered := rfl

@[simp] theorem State.record_cur (s : State) (e : BusEvent) :
    (s.record e).cur = s.cur := rfl

@[simp] theorem State.record_irqEn (s : State) (e : BusEvent) :
    (s.record e).irqEn = s.irqEn := rfl

@[simp] theorem State.record_drivers (s : State) (e : BusEvent) :
    (s.record e).drivers = s.drivers := rfl

@[simp] theorem State.record_inputs (s : State) (e : BusEvent) :
    (s.record e).inputs = s.inputs := rfl

@[simp] theorem State.record_resp (s : State) (e : BusEvent) :
    (s.record e).resp = s.resp := rfl

@[simp] theorem State.record_trace (s : State) (e : BusEvent) :
    (s.record e).trace = s.trace ++ [e] := rfl

@[simp] theorem State.record_ports (s : State) (e : BusEvent) :
    (s.record e).ports = s.ports := rfl

/-! ### `State.emit` -/

@[simp] theorem State.emit_cfg (s : State) (a : PortAction) :
    (s.emit a).cfg = s.cfg := rfl

@[simp] theorem State.emit_n (s : State) (a : PortAction) :
    (s.emit a).n = s.n := rfl

@[simp] theorem State.emit_inited (s : State) (a : PortAction) :
    (s.emit a).inited = s.inited := rfl

@[simp] theorem State.emit_powered (s : State) (a : PortAction) :
    (s.emit a).powered = s.powered := rfl

@[simp] theorem State.emit_cur (s : State) (a : PortAction) :
    (s.emit a).cur = s.cur := rfl

@[simp] theorem State.emit_irqEn (s : State) (a : PortAction) :
    (s.emit a).irqEn = s.irqEn := rfl

@[simp] theorem State.emit_drivers (s : State) (a : PortAction) :
    (s.emit a).drivers = s.drivers := rfl

@[simp] theorem State.emit_inputs (s : State) (a : PortAction) :
    (s.emit a).inputs = s.inputs := rfl

@[simp] theorem State.emit_resp (s : State) (a : PortAction) :
    (s.emit a).resp = s.resp := rfl

@[simp] theorem State.emit_trace (s : State) (a : PortAction) :
    (s.emit a).trace = s.trace := rfl

@[simp] theorem State.emit_ports (s : State) (a : PortAction) :
    (s.emit a).ports = s.ports ++ [a] := rfl

/-! ### `State.busStart` -/

@[simp] theorem State.busStart_cfg (s : State) (d : Nat) (k : TxKind) (w : Word) :
    (s.busStart d k w).cfg = s.cfg := rfl

@[simp] theorem State.busStart_n (s : State) (d : Nat) (k : TxKind) (w : Word) :
    (s.busStart d k w).n = s.n := rfl

@[simp] theorem State.busStart_inited (s : State) (d : Nat) (k : TxKind) (w : Word) :
    (s.busStart d k w).inited = s.inited := rfl

@[simp] theorem State.busStart_powered (s : State) (d : Nat) (k : TxKind) (w : Word) :
    (s.busStart d k w).powered = s.powered := rfl

@[simp] theorem State.busStart_cur (s : State) (d : Nat) (k : TxKind) (w : Word) :
    (s.busStart d k w).cur = s.cur := rfl

@[simp] theorem State.busStart_irqEn (s : State) (d : Nat) (k : TxKind) (w : Word) :
    (s.busStart d k w).irqEn = s.irqEn := rfl

@[simp] theorem State.busStart_drivers (s : State) (d : Nat) (k : TxKind) (w : Word) :
    (s.busStart d k w).drivers = s.drivers := rfl

@[simp] theorem State.busStart_inputs (s : State) (d : Nat) (k : TxKind) (w : Word) :
    (s.busStart d k w).inputs = s.inputs := rfl

@[simp] theorem State.busStart_resp (s : State) (d : Nat) (k : TxKind) (w : Word) :
    (s.busStart d k w).resp = s.resp := rfl

@[simp] theorem State.busStart_trace (s : State) (d : Nat) (k : TxKind) (w : Word) :
    (s.busStart d k w).trace = s.trace ++ [.tx d k w] := rfl

@[simp] theorem State.busStart_ports (s : State) (d : Nat) (k : TxKind) (w : Word) :
    (s.busStart d k w).ports = s.ports ++ [.busStart (s.cfg.select d) w] := rfl

/-! ### `State.busEnd` -/

@[simp] theorem State.busEnd_cfg (s : State) (d : Nat) :
    (s.busEnd d).cfg = s.cfg := rfl

@[simp] theorem State.busEnd_n (s : State) (d : Nat) :
    (s.busEnd d).n = s.n := rfl

@[simp] theorem State.busEnd_inited (s : State) (d : Nat) :
    (s.busEnd d).inited = s.inited := rfl

@[simp] theorem State.busEnd_powered (s : State) (d : Nat) :
    (s.busEnd d).powered = s.powered := rfl

@[simp] theorem State.busEnd_cur (s : State) (d : Nat) :
    (s.busEnd d).cur = s.cur := rfl

@[simp] theorem State.busEnd_irqEn (s : State) (d : Nat) :
    (s.busEnd d).irqEn = s.irqEn := rfl

@[simp] theorem State.busEnd_drivers (s : State) (d : Nat) :
    (s.busEnd d).drivers = s.drivers := rfl

@[simp] theorem State.busEnd_inputs (s : State) (d : Nat) :
    (s.busEnd d).inputs = s.inputs := rfl

@[simp] theorem State.busEnd_resp (s : State) (d : Nat) :
    (s.busEnd d).resp = s.resp := rfl

@[simp] theorem State.busEnd_trace (s : State) (d : Nat) :
    (s.busEnd d).trace = s.trace := rfl

@[simp] theorem State.busEnd_ports (s : State) (d : Nat) :
    (s.busEnd d).ports = s.ports ++ [.busEnd (s.cfg.select d)] := rfl

/-! ### `State.powerLost` -/

@[simp] theorem State.powerLost_cfg (s : State) :
    (s.powerLost).cfg = s.cfg := rfl

@[simp] theorem State.powerLost_n (s : State) :
    (s.powerLost).n = s.n := rfl

@[simp] theorem State.powerLost_inited (s : State) :
    (s.powerLost).inited = s.inited := rfl

@[simp] theorem State.powerLost_powered (s : State) :
    (s.powerLost).powered = false := rfl

@[simp] theorem State.powerLost_cur (s : State) :
    (s.powerLost).cur = s.cur := rfl

@[simp] theorem State.powerLost_irqEn (s : State) :
    (s.powerLost).irqEn = s.irqEn := rfl

@[simp] theorem State.powerLost_drivers (s : State) :
    (s.powerLost).drivers = s.drivers := rfl

@[simp] theorem State.powerLost_inputs (s : State) :
    (s.powerLost).inputs = s.inputs := rfl

@[simp] theorem State.powerLost_resp (s : State) :
    (s.powerLost).resp = s.resp := rfl

@[simp] theorem State.powerLost_trace (s : State) :
    (s.powerLost).trace = s.trace := rfl

@[simp] theorem State.powerLost_ports (s : State) :
    (s.powerLost).ports = s.ports := rfl

/-! ### `State.configureSlot` -/

@[simp] theorem State.configureSlot_cfg (s : State) (d : Nat) (sl : Slot) (f : Driver → Driver) :
    (s.configureSlot d sl f).cfg = s.cfg := rfl

@[simp] theorem State.configureSlot_n (s : State) (d : Nat) (sl : Slot) (f : Driver → Driver) :
    (s.configureSlot d sl f).n = s.n := rfl

@[simp] theorem State.configureSlot_inited (s : State) (d : Nat) (sl : Slot) (f : Driver → Driver) :
    (s.configureSlot d sl f).inited = s.inited := rfl

@[simp] theorem State.configureSlot_powered (s : State) (d : Nat) (sl : Slot) (f : Driver → Driver) :
    (s.configureSlot d sl f).powered = s.powered := rfl

@[simp] theorem State.configureSlot_cur (s : State) (d : Nat) (sl : Slot) (f : Driver → Driver) :
    (s.configureSlot d sl f).cur = s.cur := rfl

@[simp] theorem State.configureSlot_irqEn (s : State) (d : Nat) (sl : Slot) (f : Driver → Driver) :
    (s.configureSlot d sl f).irqEn = s.irqEn := rfl

@[simp] theorem State.configureSlot_drivers (s : State) (d : Nat) (sl : Slot) (f : Driver → Driver) :
    (s.configureSlot d sl f).drivers = s.drivers.modify d fun r => (f r).markPending sl := rfl

@[simp] theorem State.configureSlot_inputs (s : State) (d : Nat) (sl : Slot) (f : Driver → Driver) :
    (s.configureSlot d sl f).inputs = s.inputs := rfl

@[simp] theorem State.configureSlot_resp (s : State) (d : Nat) (sl : Slot) (f : Driver → Driver) :
    (s.configureSlot d sl f).resp = some ⟨true, 0⟩ := rfl

@[simp] theorem State.configureSlot_trace (s : State) (d : Nat) (sl : Slot) (f : Driver → Driver) :
    (s.configureSlot d sl f).trace = s.trace := rfl

@[simp] theorem State.configureSlot_ports (s : State) (d : Nat) (sl : Slot) (f : Driver → Driver) :
    (s.configureSlot d sl f).ports = s.ports := rfl

/-! ### `startTransfer` -/

@[simp] theorem startTransfer_cfg (s : State) (d : Nat) :
    (startTransfer d s).cfg = s.cfg := rfl

@[simp] theorem startTransfer_n (s : State) (d : Nat) :
    (startTransfer d s).n = s.n := rfl

@[simp] theorem startTransfer_inited (s : State) (d : Nat) :
    (startTransfer d s).inited = s.inited := rfl

@[simp] theorem startTransfer_powered (s : State) (d : Nat) :
    (startTransfer d s).powered = s.powered := rfl

@[simp] theorem startTransfer_cur (s : State) (d : Nat) :
    (startTransfer d s).cur = some d := rfl

@[simp] theorem startTransfer_irqEn (s : State) (d : Nat) :
    (startTransfer d s).irqEn = s.irqEn := rfl

@[simp] theorem startTransfer_drivers (s : State) (d : Nat) :
    (startTransfer d s).drivers = s.drivers.modify d fun _ => (s.driver d).nextTransfer.2.2 := rfl

@[simp] theorem startTransfer_inputs (s : State) (d : Nat) :
    (startTransfer d s).inputs = s.inputs := rfl

@[simp] theorem startTransfer_resp (s : State) (d : Nat) :
    (startTransfer d s).resp = s.resp := rfl

@[simp] theorem startTransfer_trace (s : State) (d : Nat) :
    (startTransfer d s).trace = s.trace ++ [.tx d (s.driver d).nextTransfer.1 (s.driver d).nextTransfer.2.1] := rfl

@[simp] theorem startTransfer_ports (s : State) (d : Nat) :
    (startTransfer d s).ports = s.ports ++ [.busStart (s.cfg.select d) (s.driver d).nextTransfer.2.1] := rfl

/-! ### `accumulate` -/

@[simp] theorem accumulate_cfg (s : State) (d : Nat) (rx : Word) (iv : BitVec 32) :
    (accumulate d rx iv s).cfg = s.cfg := rfl

@[simp] theorem accumulate_n (s : State) (d : Nat) (rx : Word) (iv : BitVec 32) :
    (accumulate d rx iv s).n = s.n := rfl

@[simp] theorem accumulate_inited (s : State) (d : Nat) (rx : Word) (iv : BitVec 32) :
    (accumulate d rx iv s).inited = s.inited := rfl

@[simp] theorem accumulate_powered (s : State) (d : Nat) (rx : Word) (iv : BitVec 32) :
    (accumulate d rx iv s).powered = s.powered := rfl

@[simp] theorem accumulate_cur (s : State) (d : Nat) (rx : Word) (iv : BitVec 32) :
    (accumulate d rx iv s).cur = s.cur := rfl

@[simp] theorem accumulate_irqEn (s : State) (d : Nat) (rx : Word) (iv : BitVec 32) :
    (accumulate d rx iv s).irqEn = s.irqEn := rfl

@[simp] theorem accumulate_drivers (s : State) (d : Nat) (rx : Word) (iv : BitVec 32) :
    (accumulate d rx iv s).drivers = s.drivers.modify d (Driver.accumulate s.cfg rx iv) := rfl

@[simp] theorem accumulate_inputs (s : State) (d : Nat) (rx : Word) (iv : BitVec 32) :
    (accumulate d rx iv s).inputs = s.inputs := rfl

@[simp] theorem accumulate_resp (s : State) (d : Nat) (rx : Word) (iv : BitVec 32) :
    (accumulate d rx iv s).resp = s.resp := rfl

@[simp] theorem accumulate_trace (s : State) (d : Nat) (rx : Word) (iv : BitVec 32) :
    (accumulate d rx iv s).trace = s.trace ++ [.rx d rx iv] := rfl

@[simp] theorem accumulate_ports (s : State) (d : Nat) (rx : Word) (iv : BitVec 32) :
    (accumulate d rx iv s).ports = s.ports ++ [.stepIntervalQuery (s.cfg.axis d) (s.driver d).mshift iv] := rfl

/-! ### `advanceChain` -/

@[simp] theorem advanceChain_cfg (s : State) (d : Nat) (rx : Word) (iv : BitVec 32) :
    (advanceChain d rx iv s).cfg = s.cfg := rfl

@[simp] theorem advanceChain_n (s : State) (d : Nat) (rx : Word) (iv : BitVec 32) :
    (advanceChain d rx iv s).n = s.n := rfl

@[simp] theorem advanceChain_inited (s : State) (d : Nat) (rx : Word) (iv : BitVec 32) :
    (advanceChain d rx iv s).inited = s.inited := rfl

@[simp] theorem advanceChain_powered (s : State) (d : Nat) (rx : Word) (iv : BitVec 32) :
    (advanceChain d rx iv s).powered = s.powered := rfl

@[simp] theorem advanceChain_cur (s : State) (d : Nat) (rx : Word) (iv : BitVec 32) :
    (advanceChain d rx iv s).cur = some ((d + 1) % s.n) := rfl

@[simp] theorem advanceChain_irqEn (s : State) (d : Nat) (rx : Word) (iv : BitVec 32) :
    (advanceChain d rx iv s).irqEn = s.irqEn := rfl

@[simp] theorem advanceChain_inputs (s : State) (d : Nat) (rx : Word) (iv : BitVec 32) :
    (advanceChain d rx iv s).inputs = s.inputs := rfl

@[simp] theorem advanceChain_resp (s : State) (d : Nat) (rx : Word) (iv : BitVec 32) :
    (advanceChain d rx iv s).resp = s.resp := rfl

/-! ### `haltChain` -/

@[simp] theorem haltChain_cfg (s : State) (d : Nat) :
    (haltChain d s).cfg = s.cfg := rfl

@[simp] theorem haltChain_n (s : State) (d : Nat) :
    (haltChain d s).n = s.n := rfl

@[simp] theorem haltChain_inited (s : State) (d : Nat) :
    (haltChain d s).inited = s.inited := rfl

@[simp] theorem haltChain_powered (s : State) (d : Nat) :
    (haltChain d s).powered = s.powered := rfl

@[simp] theorem haltChain_cur (s : State) (d : Nat) :
    (haltChain d s).cur = none := rfl

@[simp] theorem haltChain_irqEn (s : State) (d : Nat) :
    (haltChain d s).irqEn = false := rfl

@[simp] theorem haltChain_drivers (s : State) (d : Nat) :
    (haltChain d s).drivers = s.drivers := rfl

@[simp] theorem haltChain_inputs (s : State) (d : Nat) :
    (haltChain d s).inputs = s.inputs := rfl

@[simp] theorem haltChain_resp (s : State) (d : Nat) :
    (haltChain d s).resp = s.resp := rfl

@[simp] theorem haltChain_trace (s : State) (d : Nat) :
    (haltChain d s).trace = s.trace ++ [.halt d] := rfl

@[simp] theorem haltChain_ports (s : State) (d : Nat) :
    (haltChain d s).ports = s.ports := rfl

/-! ### `State.initialise` -/

@[simp] theorem State.initialise_cfg (s : State) (count : Nat) :
    (s.initialise count).cfg = s.cfg := rfl

@[simp] theorem State.initialise_n (s : State) (count : Nat) :
    (s.initialise count).n = min count s.cfg.maxDrivers := rfl

@[simp] theorem State.initialise_inited (s : State) (count : Nat) :
    (s.initialise count).inited = true := rfl

@[simp] theorem State.initialise_powered (s : State) (count : Nat) :
    (s.initialise count).powered = false := rfl

@[simp] theorem State.initialise_cur (s : State) (count : Nat) :
    (s.initialise count).cur = none := rfl

@[simp] theorem State.initialise_irqEn (s : State) (count : Nat) :
    (s.initialise count).irqEn = false := rfl

@[simp] theorem State.initialise_drivers (s : State) (count : Nat) :
    (s.initialise count).drivers = (s.drivers.take (min count s.cfg.maxDrivers)).map (fun _ => initialDriver s.cfg)
        ++ s.drivers.drop (min count s.cfg.maxDrivers) := rfl

@[simp] theorem State.initialise_inputs (s : State) (count : Nat) :
    (s.initialise count).inputs = s.inputs := rfl

@[simp] theorem State.initialise_resp (s : State) (count : Nat) :
    (s.initialise count).resp = some ⟨true, BitVec.ofNat 64 (min count s.cfg.maxDrivers)⟩ := rfl

@[simp] theorem State.initialise_trace (s : State) (count : Nat) :
    (s.initialise count).trace = s.trace := rfl

@[simp] theorem State.initialise_ports (s : State) (count : Nat) :
    (s.initialise count).ports = s.ports ++ selectsConfigured s.cfg (min count s.cfg.maxDrivers) := rfl

/-! ### `Driver.writeSlot` -/

@[simp] theorem Driver.writeSlot_reg (r : Driver) (sl : Slot) (w : Word) :
    (r.writeSlot sl w).reg = r.reg.set sl w := rfl

@[simp] theorem Driver.writeSlot_pend (r : Driver) (sl : Slot) (w : Word) :
    (r.writeSlot sl w).pend = r.pend := rfl

@[simp] theorem Driver.writeSlot_en (r : Driver) (sl : Slot) (w : Word) :
    (r.writeSlot sl w).en = r.en := rfl

@[simp] theorem Driver.writeSlot_chopCfg (r : Driver) (sl : Slot) (w : Word) :
    (r.writeSlot sl w).chopCfg = r.chopCfg := rfl

@[simp] theorem Driver.writeSlot_mshift (r : Driver) (sl : Slot) (w : Word) :
    (r.writeSlot sl w).mshift = r.mshift := rfl

@[simp] theorem Driver.writeSlot_interp (r : Driver) (sl : Slot) (w : Word) :
    (r.writeSlot sl w).interp = r.interp := rfl

@[simp] theorem Driver.writeSlot_maxIv (r : Driver) (sl : Slot) (w : Word) :
    (r.writeSlot sl w).maxIv = r.maxIv := rfl

@[simp] theorem Driver.writeSlot_live (r : Driver) (sl : Slot) (w : Word) :
    (r.writeSlot sl w).live = r.live := rfl

@[simp] theorem Driver.writeSlot_acc (r : Driver) (sl : Slot) (w : Word) :
    (r.writeSlot sl w).acc = r.acc := rfl

@[simp] theorem Driver.writeSlot_minLoad (r : Driver) (sl : Slot) (w : Word) :
    (r.writeSlot sl w).minLoad = r.minLoad := rfl

@[simp] theorem Driver.writeSlot_maxLoad (r : Driver) (sl : Slot) (w : Word) :
    (r.writeSlot sl w).maxLoad = r.maxLoad := rfl

/-! ### `Driver.markPending` -/

@[simp] theorem Driver.markPending_reg (r : Driver) (sl : Slot) :
    (r.markPending sl).reg = r.reg := rfl

@[simp] theorem Driver.markPending_pend (r : Driver) (sl : Slot) :
    (r.markPending sl).pend = Pending.mark r.pend sl := rfl

@[simp] theorem Driver.markPending_en (r : Driver) (sl : Slot) :
    (r.markPending sl).en = r.en := rfl

@[simp] theorem Driver.markPending_chopCfg (r : Driver) (sl : Slot) :
    (r.markPending sl).chopCfg = r.chopCfg := rfl

@[simp] theorem Driver.markPending_mshift (r : Driver) (sl : Slot) :
    (r.markPending sl).mshift = r.mshift := rfl

@[simp] theorem Driver.markPending_interp (r : Driver) (sl : Slot) :
    (r.markPending sl).interp = r.interp := rfl

@[simp] theorem Driver.markPending_maxIv (r : Driver) (sl : Slot) :
    (r.markPending sl).maxIv = r.maxIv := rfl

@[simp] theorem Driver.markPending_live (r : Driver) (sl : Slot) :
    (r.markPending sl).live = r.live := rfl

@[simp] theorem Driver.markPending_acc (r : Driver) (sl : Slot) :
    (r.markPending sl).acc = r.acc := rfl

@[simp] theorem Driver.markPending_minLoad (r : Driver) (sl : Slot) :
    (r.markPending sl).minLoad = r.minLoad := rfl

@[simp] theorem Driver.markPending_maxLoad (r : Driver) (sl : Slot) :
    (r.markPending sl).maxLoad = r.maxLoad := rfl

/-! ### `Driver.clearPending` -/

@[simp] theorem Driver.clearPending_reg (r : Driver) (sl : Slot) :
    (r.clearPending sl).reg = r.reg := rfl

@[simp] theorem Driver.clearPending_pend (r : Driver) (sl : Slot) :
    (r.clearPending sl).pend = Pending.unmark r.pend sl := rfl

@[simp] theorem Driver.clearPending_en (r : Driver) (sl : Slot) :
    (r.clearPending sl).en = r.en := rfl

@[simp] theorem Driver.clearPending_chopCfg (r : Driver) (sl : Slot) :
    (r.clearPending sl).chopCfg = r.chopCfg := rfl

@[simp] theorem Driver.clearPending_mshift (r : Driver) (sl : Slot) :
    (r.clearPending sl).mshift = r.mshift := rfl

@[simp] theorem Driver.clearPending_interp (r : Driver) (sl : Slot) :
    (r.clearPending sl).interp = r.interp := rfl

@[simp] theorem Driver.clearPending_maxIv (r : Driver) (sl : Slot) :
    (r.clearPending sl).maxIv = r.maxIv := rfl

@[simp] theorem Driver.clearPending_live (r : Driver) (sl : Slot) :
    (r.clearPending sl).live = r.live := rfl

@[simp] theorem Driver.clearPending_acc (r : Driver) (sl : Slot) :
    (r.clearPending sl).acc = r.acc := rfl

@[simp] theorem Driver.clearPending_minLoad (r : Driver) (sl : Slot) :
    (r.clearPending sl).minLoad = r.minLoad := rfl

@[simp] theorem Driver.clearPending_maxLoad (r : Driver) (sl : Slot) :
    (r.clearPending sl).maxLoad = r.maxLoad := rfl

/-! ### `Driver.resync` -/

@[simp] theorem Driver.resync_reg (r : Driver) :
    (r.resync).reg = r.reg := rfl

@[simp] theorem Driver.resync_pend (r : Driver) :
    (r.resync).pend = Pending.full := rfl

@[simp] theorem Driver.resync_en (r : Driver) :
    (r.resync).en = r.en := rfl

@[simp] theorem Driver.resync_chopCfg (r : Driver) :
    (r.resync).chopCfg = r.chopCfg := rfl

@[simp] theorem Driver.resync_mshift (r : Driver) :
    (r.resync).mshift = r.mshift := rfl

@[simp] theorem Driver.resync_interp (r : Driver) :
    (r.resync).interp = r.interp := rfl

@[simp] theorem Driver.resync_maxIv (r : Driver) :
    (r.resync).maxIv = r.maxIv := rfl

@[simp] theorem Driver.resync_live (r : Driver) :
    (r.resync).live = r.live := rfl

@[simp] theorem Driver.resync_acc (r : Driver) :
    (r.resync).acc = r.acc := rfl

@[simp] theorem Driver.resync_minLoad (r : Driver) :
    (r.resync).minLoad = r.minLoad := rfl

@[simp] theorem Driver.resync_maxLoad (r : Driver) :
    (r.resync).maxLoad = r.maxLoad := rfl

/-! ### `Driver.emptyWindow` -/

@[simp] theorem Driver.emptyWindow_reg (c : Cfg) (r : Driver) :
    (r.emptyWindow c).reg = r.reg := rfl

@[simp] theorem Driver.emptyWindow_pend (c : Cfg) (r : Driver) :
    (r.emptyWindow c).pend = r.pend := rfl

@[simp] theorem Driver.emptyWindow_en (c : Cfg) (r : Driver) :
    (r.emptyWindow c).en = r.en := rfl

@[simp] theorem Driver.emptyWindow_chopCfg (c : Cfg) (r : Driver) :
    (r.emptyWindow c).chopCfg = r.chopCfg := rfl

@[simp] theorem Driver.emptyWindow_mshift (c : Cfg) (r : Driver) :
    (r.emptyWindow c).mshift = r.mshift := rfl

@[simp] theorem Driver.emptyWindow_interp (c : Cfg) (r : Driver) :
    (r.emptyWindow c).interp = r.interp := rfl

@[simp] theorem Driver.emptyWindow_maxIv (c : Cfg) (r : Driver) :
    (r.emptyWindow c).maxIv = r.maxIv := rfl

@[simp] theorem Driver.emptyWindow_live (c : Cfg) (r : Driver) :
    (r.emptyWindow c).live = r.live := rfl

@[simp] theorem Driver.emptyWindow_acc (c : Cfg) (r : Driver) :
    (r.emptyWindow c).acc = r.acc := rfl

@[simp] theorem Driver.emptyWindow_minLoad (c : Cfg) (r : Driver) :
    (r.emptyWindow c).minLoad = c.emptyMinLoad := rfl

@[simp] theorem Driver.emptyWindow_maxLoad (c : Cfg) (r : Driver) :
    (r.emptyWindow c).maxLoad = emptyMaxLoad := rfl

/-! ### `Driver.regenerateChopper` -/

@[simp] theorem Driver.regenerateChopper_reg (r : Driver) (c : Cfg) :
    (r.regenerateChopper c).reg = r.reg.set .chopperControl (c.effectiveChop r.en r.chopCfg) := rfl

@[simp] theorem Driver.regenerateChopper_pend (r : Driver) (c : Cfg) :
    (r.regenerateChopper c).pend = r.pend := rfl

@[simp] theorem Driver.regenerateChopper_en (r : Driver) (c : Cfg) :
    (r.regenerateChopper c).en = r.en := rfl

@[simp] theorem Driver.regenerateChopper_chopCfg (r : Driver) (c : Cfg) :
    (r.regenerateChopper c).chopCfg = r.chopCfg := rfl

@[simp] theorem Driver.regenerateChopper_mshift (r : Driver) (c : Cfg) :
    (r.regenerateChopper c).mshift = r.mshift := rfl

@[simp] theorem Driver.regenerateChopper_interp (r : Driver) (c : Cfg) :
    (r.regenerateChopper c).interp = r.interp := rfl

@[simp] theorem Driver.regenerateChopper_maxIv (r : Driver) (c : Cfg) :
    (r.regenerateChopper c).maxIv = r.maxIv := rfl

@[simp] theorem Driver.regenerateChopper_live (r : Driver) (c : Cfg) :
    (r.regenerateChopper c).live = r.live := rfl

@[simp] theorem Driver.regenerateChopper_acc (r : Driver) (c : Cfg) :
    (r.regenerateChopper c).acc = r.acc := rfl

@[simp] theorem Driver.regenerateChopper_minLoad (r : Driver) (c : Cfg) :
    (r.regenerateChopper c).minLoad = r.minLoad := rfl

@[simp] theorem Driver.regenerateChopper_maxLoad (r : Driver) (c : Cfg) :
    (r.regenerateChopper c).maxLoad = r.maxLoad := rfl

/-! ### `Driver.writeStallGuard` -/

@[simp] theorem Driver.writeStallGuard_reg (r : Driver) (f : Field) (v : Nat) :
    (r.writeStallGuard f v).reg = r.reg.set .stallGuardConfig (f.set r.reg.stallGuardConfig v) := rfl

@[simp] theorem Driver.writeStallGuard_pend (r : Driver) (f : Field) (v : Nat) :
    (r.writeStallGuard f v).pend = r.pend := rfl

@[simp] theorem Driver.writeStallGuard_en (r : Driver) (f : Field) (v : Nat) :
    (r.writeStallGuard f v).en = r.en := rfl

@[simp] theorem Driver.writeStallGuard_chopCfg (r : Driver) (f : Field) (v : Nat) :
    (r.writeStallGuard f v).chopCfg = r.chopCfg := rfl

@[simp] theorem Driver.writeStallGuard_mshift (r : Driver) (f : Field) (v : Nat) :
    (r.writeStallGuard f v).mshift = r.mshift := rfl

@[simp] theorem Driver.writeStallGuard_interp (r : Driver) (f : Field) (v : Nat) :
    (r.writeStallGuard f v).interp = r.interp := rfl

@[simp] theorem Driver.writeStallGuard_maxIv (r : Driver) (f : Field) (v : Nat) :
    (r.writeStallGuard f v).maxIv = r.maxIv := rfl

@[simp] theorem Driver.writeStallGuard_live (r : Driver) (f : Field) (v : Nat) :
    (r.writeStallGuard f v).live = r.live := rfl

@[simp] theorem Driver.writeStallGuard_acc (r : Driver) (f : Field) (v : Nat) :
    (r.writeStallGuard f v).acc = r.acc := rfl

@[simp] theorem Driver.writeStallGuard_minLoad (r : Driver) (f : Field) (v : Nat) :
    (r.writeStallGuard f v).minLoad = r.minLoad := rfl

@[simp] theorem Driver.writeStallGuard_maxLoad (r : Driver) (f : Field) (v : Nat) :
    (r.writeStallGuard f v).maxLoad = r.maxLoad := rfl

/-! ### `Driver.setMicrostepping` -/

@[simp] theorem Driver.setMicrostepping_reg (r : Driver) (c : Cfg) (shift : Nat) (interp : Bool) :
    (r.setMicrostepping c shift interp).reg = r.reg.set .driveControl (c.slotLayout.intpol.set
        (c.slotLayout.mres.set r.reg.driveControl (c.mresCode shift)) interp.toNat) := rfl

@[simp] theorem Driver.setMicrostepping_pend (r : Driver) (c : Cfg) (shift : Nat) (interp : Bool) :
    (r.setMicrostepping c shift interp).pend = r.pend := rfl

@[simp] theorem Driver.setMicrostepping_en (r : Driver) (c : Cfg) (shift : Nat) (interp : Bool) :
    (r.setMicrostepping c shift interp).en = r.en := rfl

@[simp] theorem Driver.setMicrostepping_chopCfg (r : Driver) (c : Cfg) (shift : Nat) (interp : Bool) :
    (r.setMicrostepping c shift interp).chopCfg = r.chopCfg := rfl

@[simp] theorem Driver.setMicrostepping_mshift (r : Driver) (c : Cfg) (shift : Nat) (interp : Bool) :
    (r.setMicrostepping c shift interp).mshift = BitVec.ofNat 4 shift := rfl

@[simp] theorem Driver.setMicrostepping_interp (r : Driver) (c : Cfg) (shift : Nat) (interp : Bool) :
    (r.setMicrostepping c shift interp).interp = interp := rfl

@[simp] theorem Driver.setMicrostepping_maxIv (r : Driver) (c : Cfg) (shift : Nat) (interp : Bool) :
    (r.setMicrostepping c shift interp).maxIv = r.maxIv := rfl

@[simp] theorem Driver.setMicrostepping_live (r : Driver) (c : Cfg) (shift : Nat) (interp : Bool) :
    (r.setMicrostepping c shift interp).live = r.live := rfl

@[simp] theorem Driver.setMicrostepping_acc (r : Driver) (c : Cfg) (shift : Nat) (interp : Bool) :
    (r.setMicrostepping c shift interp).acc = r.acc := rfl

@[simp] theorem Driver.setMicrostepping_minLoad (r : Driver) (c : Cfg) (shift : Nat) (interp : Bool) :
    (r.setMicrostepping c shift interp).minLoad = r.minLoad := rfl

@[simp] theorem Driver.setMicrostepping_maxLoad (r : Driver) (c : Cfg) (shift : Nat) (interp : Bool) :
    (r.setMicrostepping c shift interp).maxLoad = r.maxLoad := rfl

/-! ### `Driver.setChopper` -/

@[simp] theorem Driver.setChopper_reg (r : Driver) (c : Cfg) (x : Word) :
    (r.setChopper c x).reg = r.reg.set .chopperControl (c.effectiveChop r.en x) := rfl

@[simp] theorem Driver.setChopper_pend (r : Driver) (c : Cfg) (x : Word) :
    (r.setChopper c x).pend = r.pend := rfl

@[simp] theorem Driver.setChopper_en (r : Driver) (c : Cfg) (x : Word) :
    (r.setChopper c x).en = r.en := rfl

@[simp] theorem Driver.setChopper_chopCfg (r : Driver) (c : Cfg) (x : Word) :
    (r.setChopper c x).chopCfg = x := rfl

@[simp] theorem Driver.setChopper_mshift (r : Driver) (c : Cfg) (x : Word) :
    (r.setChopper c x).mshift = r.mshift := rfl

@[simp] theorem Driver.setChopper_interp (r : Driver) (c : Cfg) (x : Word) :
    (r.setChopper c x).interp = r.interp := rfl

@[simp] theorem Driver.setChopper_maxIv (r : Driver) (c : Cfg) (x : Word) :
    (r.setChopper c x).maxIv = r.maxIv := rfl

@[simp] theorem Driver.setChopper_live (r : Driver) (c : Cfg) (x : Word) :
    (r.setChopper c x).live = r.live := rfl

@[simp] theorem Driver.setChopper_acc (r : Driver) (c : Cfg) (x : Word) :
    (r.setChopper c x).acc = r.acc := rfl

@[simp] theorem Driver.setChopper_minLoad (r : Driver) (c : Cfg) (x : Word) :
    (r.setChopper c x).minLoad = r.minLoad := rfl

@[simp] theorem Driver.setChopper_maxLoad (r : Driver) (c : Cfg) (x : Word) :
    (r.setChopper c x).maxLoad = r.maxLoad := rfl

/-! ### `Driver.setEnable` -/

@[simp] theorem Driver.setEnable_reg (r : Driver) (c : Cfg) (on : Bool) :
    (r.setEnable c on).reg = r.reg.set .chopperControl (c.effectiveChop on r.chopCfg) := rfl

@[simp] theorem Driver.setEnable_pend (r : Driver) (c : Cfg) (on : Bool) :
    (r.setEnable c on).pend = r.pend := rfl

@[simp] theorem Driver.setEnable_en (r : Driver) (c : Cfg) (on : Bool) :
    (r.setEnable c on).en = on := rfl

@[simp] theorem Driver.setEnable_chopCfg (r : Driver) (c : Cfg) (on : Bool) :
    (r.setEnable c on).chopCfg = r.chopCfg := rfl

@[simp] theorem Driver.setEnable_mshift (r : Driver) (c : Cfg) (on : Bool) :
    (r.setEnable c on).mshift = r.mshift := rfl

@[simp] theorem Driver.setEnable_interp (r : Driver) (c : Cfg) (on : Bool) :
    (r.setEnable c on).interp = r.interp := rfl

@[simp] theorem Driver.setEnable_maxIv (r : Driver) (c : Cfg) (on : Bool) :
    (r.setEnable c on).maxIv = r.maxIv := rfl

@[simp] theorem Driver.setEnable_live (r : Driver) (c : Cfg) (on : Bool) :
    (r.setEnable c on).live = (if on then c.clearStall r.live else r.live) := rfl

@[simp] theorem Driver.setEnable_acc (r : Driver) (c : Cfg) (on : Bool) :
    (r.setEnable c on).acc = (if on then c.clearStall r.acc else r.acc) := rfl

@[simp] theorem Driver.setEnable_minLoad (r : Driver) (c : Cfg) (on : Bool) :
    (r.setEnable c on).minLoad = r.minLoad := rfl

@[simp] theorem Driver.setEnable_maxLoad (r : Driver) (c : Cfg) (on : Bool) :
    (r.setEnable c on).maxLoad = r.maxLoad := rfl

/-! ### `Driver.accumulate` -/

@[simp] theorem Driver.accumulate_reg (r : Driver) (c : Cfg) (rx : Word) (iv : BitVec 32) :
    (r.accumulate c rx iv).reg = r.reg := rfl

@[simp] theorem Driver.accumulate_pend (r : Driver) (c : Cfg) (rx : Word) (iv : BitVec 32) :
    (r.accumulate c rx iv).pend = r.pend := rfl

@[simp] theorem Driver.accumulate_en (r : Driver) (c : Cfg) (rx : Word) (iv : BitVec 32) :
    (r.accumulate c rx iv).en = r.en := rfl

@[simp] theorem Driver.accumulate_chopCfg (r : Driver) (c : Cfg) (rx : Word) (iv : BitVec 32) :
    (r.accumulate c rx iv).chopCfg = r.chopCfg := rfl

@[simp] theorem Driver.accumulate_mshift (r : Driver) (c : Cfg) (rx : Word) (iv : BitVec 32) :
    (r.accumulate c rx iv).mshift = r.mshift := rfl

@[simp] theorem Driver.accumulate_interp (r : Driver) (c : Cfg) (rx : Word) (iv : BitVec 32) :
    (r.accumulate c rx iv).interp = r.interp := rfl

@[simp] theorem Driver.accumulate_maxIv (r : Driver) (c : Cfg) (rx : Word) (iv : BitVec 32) :
    (r.accumulate c rx iv).maxIv = r.maxIv := rfl

@[simp] theorem Driver.accumulate_live (r : Driver) (c : Cfg) (rx : Word) (iv : BitVec 32) :
    (r.accumulate c rx iv).live = c.filterStatus (stallGate iv r.maxIv) rx := rfl

@[simp] theorem Driver.accumulate_acc (r : Driver) (c : Cfg) (rx : Word) (iv : BitVec 32) :
    (r.accumulate c rx iv).acc = r.acc ||| c.filterStatus (stallGate iv r.maxIv) rx := rfl

@[simp] theorem Driver.accumulate_minLoad (r : Driver) (c : Cfg) (rx : Word) (iv : BitVec 32) :
    (r.accumulate c rx iv).minLoad = (if stallGate iv r.maxIv then lowerLoad r.minLoad (c.loadOf rx) else r.minLoad) := rfl

@[simp] theorem Driver.accumulate_maxLoad (r : Driver) (c : Cfg) (rx : Word) (iv : BitVec 32) :
    (r.accumulate c rx iv).maxLoad = (if stallGate iv r.maxIv then upperLoad r.maxLoad (c.loadOf rx) else r.maxLoad) := rfl

end Sys2Proof.Machine
end

