-- ==== Sys2Proof/Laws/Ops.lean ====
section
/-! SUPPORT. One lemma for each shared operation that says once everything it can do; the proofs cite these instead of
unfolding the operation. -/

namespace Sys2Proof.Machine

/-! ### The per-driver records -/

/-- Reading a record after one was replaced. -/
theorem State.driver_updateDriver (s : State) (d e : Nat) (f : Driver → Driver) :
    (s.updateDriver d f).driver e =
      if e = d ∧ d < s.drivers.length then f (s.driver d) else s.driver e := by
  unfold State.driver State.updateDriver
  simp only [List.getD_eq_getElem?_getD, List.getElem?_modify]
  by_cases h : d = e
  · subst h
    by_cases hl : d < s.drivers.length
    · simp [hl]
    · simp [hl]
  · have h' : ¬ e = d := fun he => h he.symm
    simp [h, h']

theorem State.driver_updateDriver_same (s : State) {d : Nat} (f : Driver → Driver) (h : d < s.drivers.length) :
    (s.updateDriver d f).driver d = f (s.driver d) := by
  rw [State.driver_updateDriver]; simp [h]

theorem State.driver_updateDriver_other (s : State) {d e : Nat} (f : Driver → Driver) (h : e ≠ d) :
    (s.updateDriver d f).driver e = s.driver e := by
  rw [State.driver_updateDriver]; simp [h]

@[simp] theorem State.length_updateDriver (s : State) (d : Nat) (f : Driver → Driver) :
    (s.updateDriver d f).drivers.length = s.drivers.length := by
  simp

/-- Reading a record after the first `n` were replaced. -/
theorem State.driver_updateFirst (s : State) (n e : Nat) (f : Driver → Driver) (hn : n ≤ s.drivers.length) :
    (s.updateFirst n f).driver e = if e < n then f (s.driver e) else s.driver e := by
  unfold State.driver State.updateFirst
  simp only [List.getD_eq_getElem?_getD]
  by_cases h : e < n
  · have hl : e < s.drivers.length := by omega
    rw [List.getElem?_append_left (by simp; omega)]
    simp [h, hl]
  · rw [List.getElem?_append_right (by simp; omega)]
    have h1 : n + (e - n) = e := by omega
    simp [h, hn, h1]

@[simp] theorem State.length_updateFirst (s : State) (n : Nat) (f : Driver → Driver) :
    (s.updateFirst n f).drivers.length = s.drivers.length := by
  simp; omega

/-- A record is a function of the records alone. -/
theorem State.driver_congr {s t : State} (h : t.drivers = s.drivers) (d : Nat) : t.driver d = s.driver d := by
  unfold State.driver; rw [h]

@[simp] theorem State.driver_respond (s : State) (ok : Bool) (v : BitVec 64) (d : Nat) :
    (s.respond ok v).driver d = s.driver d := rfl
@[simp] theorem State.driver_fail (s : State) (d : Nat) : s.fail.driver d = s.driver d := rfl
@[simp] theorem State.driver_noResponse (s : State) (d : Nat) : s.noResponse.driver d = s.driver d := rfl
@[simp] theorem State.driver_record (s : State) (e : BusEvent) (d : Nat) : (s.record e).driver d = s.driver d := rfl
@[simp] theorem State.driver_emit (s : State) (a : PortAction) (d : Nat) : (s.emit a).driver d = s.driver d := rfl
@[simp] theorem State.driver_busEnd (s : State) (e d : Nat) : (s.busEnd e).driver d = s.driver d := rfl
@[simp] theorem State.driver_busStart (s : State) (e : Nat) (k : TxKind) (w : Word) (d : Nat) :
    (s.busStart e k w).driver d = s.driver d := rfl
@[simp] theorem State.driver_powerLost (s : State) (d : Nat) : s.powerLost.driver d = s.driver d := rfl
@[simp] theorem State.driver_haltChain (s : State) (e d : Nat) : (haltChain e s).driver d = s.driver d := rfl
@[simp] theorem State.driver_initialise (s : State) (count d : Nat) :
    (s.initialise count).driver d =
      (s.updateFirst (min count s.cfg.maxDrivers) (fun _ => initialDriver s.cfg)).driver d := rfl

/-! ### The index check, the setter form, the reads -/

theorem indexed_of_lt {d : Nat} {s : State} (k : State → State) (h : d < s.n) : indexed d s k = .next (k s) := by
  simp [indexed, h]

theorem indexed_of_ge {d : Nat} {s : State} (k : State → State) (h : s.n ≤ d) : indexed d s k = .next s.fail := by
  have : ¬ d < s.n := by omega
  simp [indexed, this]

/-- Everything an indexed command can do. -/
theorem indexed_cases {d : Nat} {s t : State} {k : State → State} (h : indexed d s k = .next t) :
    (d < s.n ∧ t = k s) ∨ (s.n ≤ d ∧ t = s.fail) := by
  by_cases hd : d < s.n
  · rw [indexed_of_lt k hd] at h
    cases h
    exact .inl ⟨hd, rfl⟩
  · rw [indexed_of_ge k (by omega)] at h
    cases h
    exact .inr ⟨by omega, rfl⟩

theorem setSlot_of_lt {d : Nat} {sl : Slot} {s : State} (f : Driver → Driver) (h : d < s.n) :
    setSlot d sl s f = .next (s.configureSlot d sl f) := indexed_of_lt _ h

theorem readDriver_of_lt {d : Nat} {s : State} (value : Driver → BitVec 64) (h : d < s.n) :
    readDriver d s value = .next (s.respond true (value (s.driver d))) := indexed_of_lt _ h

/-- The record of the driver a setter configures. -/
theorem State.driver_configureSlot_same (s : State) {d : Nat} (sl : Slot) (f : Driver → Driver)
    (h : d < s.drivers.length) : (s.configureSlot d sl f).driver d = (f (s.driver d)).markPending sl := by
  unfold State.configureSlot
  rw [State.driver_respond, State.driver_updateDriver_same _ _ h]

/-- The records a setter leaves alone. -/
theorem State.driver_configureSlot_other (s : State) {d e : Nat} (sl : Slot) (f : Driver → Driver) (h : e ≠ d) :
    (s.configureSlot d sl f).driver e = s.driver e := by
  unfold State.configureSlot
  rw [State.driver_respond, State.driver_updateDriver_other _ _ h]

/-- A command that replaces one record and responds changes nothing else. -/
theorem State.onlyRecordChanged_update (s : State) (d : Nat) (f : Driver → Driver) (ok : Bool) (v : BitVec 64) :
    State.OnlyRecordChanged d s ((s.updateDriver d f).respond ok v) where
  cfg := rfl
  n := rfl
  inited := rfl
  powered := rfl
  cur := rfl
  irqEn := rfl
  inputs := rfl
  trace := rfl
  ports := rfl
  records := by simp
  others := fun e he => by rw [State.driver_respond, State.driver_updateDriver_other _ _ he]

/-- A setter changes nothing but the record of its driver and the response. -/
theorem State.onlyRecordChanged_configureSlot (s : State) (d : Nat) (sl : Slot) (f : Driver → Driver) :
    State.OnlyRecordChanged d s (s.configureSlot d sl f) :=
  State.onlyRecordChanged_update s d _ true 0

/-! ### The micro-operations -/

/-- The two things START can send (40_transfer_scheduler.md R111). -/
theorem Driver.nextTransfer_cases (r : Driver) :
    (∃ sl, Pending.lowestSet r.pend = some sl
        ∧ r.nextTransfer = (.slot sl, r.reg.get sl, r.clearPending sl))
      ∨ (Pending.lowestSet r.pend = none ∧ r.nextTransfer = (.poll, r.reg.smartEnable, r)) := by
  unfold Driver.nextTransfer
  cases h : Pending.lowestSet r.pend with
  | some sl => exact .inl ⟨sl, rfl, rfl⟩
  | none => exact .inr ⟨rfl, rfl⟩

/-- START changes no field of the record but the bitmap. -/
theorem Driver.nextTransfer_record (r : Driver) :
    r.nextTransfer.2.2 = { r with pend := r.nextTransfer.2.2.pend } := by
  rcases r.nextTransfer_cases with ⟨sl, -, h⟩ | ⟨-, h⟩
  · rw [h]; rfl
  · rw [h]

/-- The record of the driver a transfer is started for. -/
theorem driver_startTransfer (s : State) (d e : Nat) :
    (startTransfer d s).driver e =
      if e = d ∧ d < s.drivers.length then (s.driver d).nextTransfer.2.2 else s.driver e := by
  have h : (startTransfer d s).driver e = (s.updateDriver d fun _ => (s.driver d).nextTransfer.2.2).driver e :=
    State.driver_congr rfl e
  rw [h, State.driver_updateDriver]

/-- The record of the driver a status word is merged for. -/
theorem driver_accumulate (s : State) (d e : Nat) (rx : Word) (iv : BitVec 32) :
    (accumulate d rx iv s).driver e =
      if e = d ∧ d < s.drivers.length then (s.driver d).accumulate s.cfg rx iv else s.driver e := by
  have h : (accumulate d rx iv s).driver e = (s.updateDriver d (Driver.accumulate s.cfg rx iv)).driver e :=
    State.driver_congr rfl e
  rw [h, State.driver_updateDriver]

/-- Everything COMPLETE can do when it is taken (40_transfer_scheduler.md R113). -/
theorem execComplete_cases {rx : Word} {iv : BitVec 32} {s t : State} (h : execComplete rx iv s = .next t) :
    ∃ d, s.cur = some d ∧ s.irqEn = true ∧
      ((s.powered = true ∧ t = (advanceChain d rx iv (s.busEnd d)).noResponse)
        ∨ (s.powered = false ∧ t = (haltChain d (s.busEnd d)).noResponse)) := by
  unfold execComplete at h
  cases hc : s.cur with
  | none => rw [hc] at h; cases h
  | some d =>
    rw [hc] at h
    cases hi : s.irqEn with
    | false => simp [hi] at h
    | true =>
      simp only [hi, if_true] at h
      cases h
      refine ⟨d, rfl, rfl, ?_⟩
      unfold completionHandler
      cases hp : s.powered with
      | true => exact .inl ⟨rfl, rfl⟩
      | false => exact .inr ⟨rfl, rfl⟩

/-- Everything `Spin` can do (43_power_control.md R181). -/
theorem execSpin_cases {p : Bool} {s t : State} (h : execSpin p s = .next t) :
    (p = true ∧ s.powered = false ∧ t = s.powerRestored.respond true 0)
      ∨ (p = false ∧ s.powered = true ∧ t = s.powerLost.respond true 0)
      ∨ (p = s.powered ∧ t = s.respond true 0) := by
  unfold execSpin at h
  cases p <;> cases hp : s.powered <;> simp [hp] at h <;> subst h <;> simp

/-- The two things a restored power can do: start the idle chain at driver 0, or only mark everything pending
(43_power_control.md R181). -/
theorem State.powerRestored_cases (s : State) :
    (s.cur = none ∧ 0 < s.n ∧
        s.powerRestored = startTransfer 0 { s.updateFirst s.n Driver.resync with powered := true, irqEn := true })
      ∨ ((s.cur ≠ none ∨ s.n = 0) ∧ s.powerRestored = { s.updateFirst s.n Driver.resync with powered := true }) := by
  unfold State.powerRestored
  cases hc : s.cur with
  | some d => right; simp [hc]
  | none =>
    by_cases hn : 0 < s.n
    · left; simp [hc, hn]
    · right
      have h0 : s.n = 0 := by omega
      simp [hc, h0]

/-! ### One step -/

theorem step_of_nil {s : State} (h : s.inputs = []) : step s = .next s.idle := by
  simp [step, State.takeInput, h]

theorem step_of_cons {s : State} {i : Stimulus} {rest : List Stimulus} (h : s.inputs = i :: rest) :
    step s = processStimulus i { s with inputs := rest } := by
  simp [step, State.takeInput, h]

/-- Where the operation a step runs comes from: the strobe, or the word it decodes from. -/
def Stimulus.Issues (c : Cfg) (i : Stimulus) (instr : Instr) : Prop :=
  (i = .forceOffStrobe ∧ instr = .forceOff) ∨ ∃ w, i = .word w ∧ decode c w = .ok instr

/-- Everything a step can do: nothing, a reserved opcode's `fail`, one operation on the state with the stimulus taken, or
the reset input. -/
theorem step_cases {s t : State} (h : step s = .next t) :
    (s.inputs = [] ∧ t = s.idle)
      ∨ ∃ i rest, s.inputs = i :: rest ∧
          (t = State.fail { s with inputs := rest } ∨ (∃ instr, i.Issues s.cfg instr ∧ exec instr { s with inputs := rest } = .next t)
            ∨ (i = .resetInput ∧ t = State.resetByInput { s with inputs := rest })) := by
  cases hi : s.inputs with
  | nil =>
    rw [step_of_nil hi] at h
    cases h
    exact .inl ⟨rfl, rfl⟩
  | cons i rest =>
    rw [step_of_cons hi] at h
    refine .inr ⟨i, rest, rfl, ?_⟩
    cases i with
    | forceOffStrobe => exact .inr (.inl ⟨.forceOff, .inl ⟨rfl, rfl⟩, h⟩)
    | resetInput => cases h; exact .inr (.inr ⟨rfl, rfl⟩)
    | word w =>
      simp only [processStimulus] at h
      cases hd : decode s.cfg w with
      | error e => rw [hd] at h; cases h; exact .inl rfl
      | ok instr => rw [hd] at h; exact .inr (.inl ⟨instr, .inr ⟨w, rfl, hd⟩, h⟩)

/-! ### The invariants -/

/-- The invariants do not look at the inputs. -/
theorem State.Inv.withInputs {s : State} (h : s.Inv) (inputs : List Stimulus) :
    State.Inv { s with inputs := inputs } :=
  ⟨h.cfg_valid, h.records, h.n_le, h.n_zero, h.cur_lt, h.cur_inited, h.irq_iff, h.running, h.drivers⟩

/-- The invariants of a record do not look at its bitmap. -/
theorem Driver.Inv.withPend {c : Cfg} {r : Driver} (h : Driver.Inv c r) (p : Pending) :
    Driver.Inv c { r with pend := p } :=
  ⟨h.tags, h.chopCfg_tag, h.chopCfg_valid, h.chopper_enabled, h.chopper_disabled, h.mshift_le, h.mres, h.intpol,
    h.window, h.live_fits, h.acc_fits, h.minLoad_lt, h.maxLoad_lt⟩

/-- Every driver in range has a record. -/
theorem State.Inv.shaped {s : State} (h : s.Inv) : s.Shaped := by
  have h1 := h.records
  have h2 := h.n_le
  unfold State.Shaped
  omega

end Sys2Proof.Machine
end

