-- ==== Sys2Proof/Laws/Exec.lean ====
section
/-! SUPPORT. What each indexed command is over the shared operations, and what all of them have in common. -/

namespace Sys2Proof.Machine

/-! ### One equation per indexed command -/

theorem exec_setMicrostepping (d shift : Nat) (interp : Bool) (s : State) :
    exec (.setMicrostepping d shift interp) s = indexed d s fun s =>
      if maxShift < shift then s.fail
      else s.configureSlot d .driveControl (Driver.setMicrostepping s.cfg shift interp) := rfl

theorem exec_setCurrent (d current : Nat) (s : State) :
    exec (.setCurrent d current) s = indexed d s fun u => u.configureSlot d .stallGuardConfig
      (Driver.writeStallGuard s.cfg.slotLayout.cs (s.cfg.currentCode (s.cfg.clampCurrent current))) := rfl

theorem exec_setChopperConfig (d : Nat) (raw : Word) (s : State) :
    exec (.setChopperConfig d raw) s = indexed d s fun s =>
      if s.cfg.chopValid (s.cfg.slotWord .chopperControl raw) then
        s.configureSlot d .chopperControl (Driver.setChopper s.cfg (s.cfg.slotWord .chopperControl raw))
      else s.fail := rfl

theorem exec_enable (d : Nat) (on : Bool) (s : State) :
    exec (.enable d on) s = indexed d s fun s =>
      if (s.driver d).en = on then s.respond true 0
      else s.configureSlot d .chopperControl (Driver.setEnable s.cfg on) := rfl

theorem exec_setStallThreshold (d : Nat) (v : Int) (s : State) :
    exec (.setStallThreshold d v) s = indexed d s fun u => u.configureSlot d .stallGuardConfig
      (Driver.writeStallGuard s.cfg.slotLayout.sgt (stallThresholdCode v)) := rfl

theorem exec_setStallFilter (d : Nat) (on : Bool) (s : State) :
    exec (.setStallFilter d on) s = indexed d s fun u => u.configureSlot d .stallGuardConfig
      (Driver.writeStallGuard s.cfg.slotLayout.sfilt on.toNat) := rfl

theorem exec_setCoolStepConfig (d : Nat) (raw : Word) (s : State) :
    exec (.setCoolStepConfig d raw) s = indexed d s fun u => u.configureSlot d .smartEnable
      fun r => r.writeSlot .smartEnable (s.cfg.slotWord .smartEnable raw) := rfl

theorem exec_setStallMinStepsPerSecond (d rate : Nat) (s : State) :
    exec (.setStallMinStepsPerSecond d rate) s = indexed d s fun s =>
      (s.updateDriver d fun r => { r with maxIv := s.cfg.maxInterval rate }).respond true 0 := rfl

theorem exec_getMicrostepping (d : Nat) (s : State) :
    exec (.getMicrostepping d) s = indexed d s fun u =>
      u.respond true (microsteppingValue (u.driver d).mshift (u.driver d).interp) := rfl

theorem exec_getChopperConfig (d : Nat) (s : State) :
    exec (.getChopperConfig d) s = indexed d s fun u => u.respond true ((u.driver d).chopCfg.setWidth 64) := rfl

theorem exec_isEnabled (d : Nat) (s : State) :
    exec (.isEnabled d) s = indexed d s fun u =>
      u.respond true ((BitVec.ofBool (u.driver d).en).setWidth 64) := rfl

theorem exec_readLiveStatus (d : Nat) (s : State) :
    exec (.readLiveStatus d) s = indexed d s fun u =>
      u.respond true ((s.cfg.liveView (u.driver d).en (u.driver d).live).setWidth 64) := rfl

theorem exec_readAccumulatedStatus (d : Nat) (mask : Word) (s : State) :
    exec (.readAccumulatedStatus d mask) s = indexed d s fun s =>
      (s.updateDriver d fun r => { r with acc := r.acc &&& mask }).respond true
        ((s.driver d).acc.setWidth 64) := rfl

theorem exec_appendStatusReport (d : Nat) (s : State) :
    exec (.appendStatusReport d) s = indexed d s fun s =>
      (s.updateDriver d (Driver.emptyWindow s.cfg)).respond true ((s.driver d).statusReport s.cfg) := rfl

theorem exec_appendStallConfig (d : Nat) (s : State) :
    exec (.appendStallConfig d) s = indexed d s fun u => u.respond true
      (s.cfg.stallConfigValue (u.driver d).reg.stallGuardConfig (u.driver d).reg.smartEnable (u.driver d).maxIv) := rfl

/-! ### What the indexed commands have in common -/

/-- Every indexed command is its index check and a body (42_config_operations.md R150). -/
theorem exec_eq_indexed {i : Instr} {d : Nat} (hi : i.driverIndex = some d) (s : State) :
    ∃ k : State → State, exec i s = indexed d s k := by
  cases i with
  | init count => exact absurd hi nofun
  | spin powered => exact absurd hi nofun
  | forceOff => exact absurd hi nofun
  | complete rx iv => exact absurd hi nofun
  | setMicrostepping e shift interp => cases Option.some.inj hi; exact ⟨_, exec_setMicrostepping ..⟩
  | setCurrent e current => cases Option.some.inj hi; exact ⟨_, exec_setCurrent ..⟩
  | setChopperConfig e raw => cases Option.some.inj hi; exact ⟨_, exec_setChopperConfig ..⟩
  | enable e on => cases Option.some.inj hi; exact ⟨_, exec_enable ..⟩
  | setStallThreshold e v => cases Option.some.inj hi; exact ⟨_, exec_setStallThreshold ..⟩
  | setStallFilter e on => cases Option.some.inj hi; exact ⟨_, exec_setStallFilter ..⟩
  | setCoolStepConfig e raw => cases Option.some.inj hi; exact ⟨_, exec_setCoolStepConfig ..⟩
  | setStallMinStepsPerSecond e rate => cases Option.some.inj hi; exact ⟨_, exec_setStallMinStepsPerSecond ..⟩
  | getMicrostepping e => cases Option.some.inj hi; exact ⟨_, exec_getMicrostepping ..⟩
  | getChopperConfig e => cases Option.some.inj hi; exact ⟨_, exec_getChopperConfig ..⟩
  | isEnabled e => cases Option.some.inj hi; exact ⟨_, exec_isEnabled ..⟩
  | readLiveStatus e => cases Option.some.inj hi; exact ⟨_, exec_readLiveStatus ..⟩
  | readAccumulatedStatus e mask => cases Option.some.inj hi; exact ⟨_, exec_readAccumulatedStatus ..⟩
  | appendStatusReport e => cases Option.some.inj hi; exact ⟨_, exec_appendStatusReport ..⟩
  | appendStallConfig e => cases Option.some.inj hi; exact ⟨_, exec_appendStallConfig ..⟩

/-- The record of a driver replaced by itself is no change. -/
theorem State.updateDriver_id (s : State) (d : Nat) : s.updateDriver d id = s := by
  unfold State.updateDriver
  rw [List.modify_id]

/-- The four shapes of the body of an indexed command in range: a failed validation; a read; a slot configured; another
field of the record written. -/
inductive IndexedEffect (d : Nat) (s : State) : State → Prop where
  | failed : IndexedEffect d s s.fail
  | read (v : BitVec 64) : IndexedEffect d s (s.respond true v)
  | slot (sl : Slot) (f : Driver → Driver) : IndexedEffect d s (s.configureSlot d sl f)
  | field (f : Driver → Driver) (v : BitVec 64) (hp : ∀ r, (f r).pend = r.pend) (hr : ∀ r, (f r).reg = r.reg) :
      IndexedEffect d s ((s.updateDriver d f).respond true v)

/-- Everything an indexed command can do: its index is out of range, or one of the four shapes. -/
theorem exec_indexed_cases {i : Instr} {d : Nat} {s t : State} (hi : i.driverIndex = some d)
    (h : exec i s = .next t) : (s.n ≤ d ∧ t = s.fail) ∨ (d < s.n ∧ IndexedEffect d s t) := by
  by_cases hd : s.n ≤ d
  · obtain ⟨k, hk⟩ := exec_eq_indexed hi s
    rw [hk, indexed_of_ge k hd] at h
    cases h
    exact .inl ⟨hd, rfl⟩
  · have hlt : d < s.n := by omega
    refine .inr ⟨hlt, ?_⟩
    cases i with
    | init count => exact absurd hi nofun
    | spin powered => exact absurd hi nofun
    | forceOff => exact absurd hi nofun
    | complete rx iv => exact absurd hi nofun
    | setMicrostepping e shift interp =>
      cases Option.some.inj hi
      rw [exec_setMicrostepping, indexed_of_lt _ hlt] at h
      cases h
      split
      · exact .failed
      · exact .slot _ _
    | setCurrent e current =>
      cases Option.some.inj hi
      rw [exec_setCurrent, indexed_of_lt _ hlt] at h
      cases h
      exact .slot _ _
    | setChopperConfig e raw =>
      cases Option.some.inj hi
      rw [exec_setChopperConfig, indexed_of_lt _ hlt] at h
      cases h
      split
      · exact .slot _ _
      · exact .failed
    | enable e on =>
      cases Option.some.inj hi
      rw [exec_enable, indexed_of_lt _ hlt] at h
      cases h
      split
      · exact .read _
      · exact .slot _ _
    | setStallThreshold e v =>
      cases Option.some.inj hi
      rw [exec_setStallThreshold, indexed_of_lt _ hlt] at h
      cases h
      exact .slot _ _
    | setStallFilter e on =>
      cases Option.some.inj hi
      rw [exec_setStallFilter, indexed_of_lt _ hlt] at h
      cases h
      exact .slot _ _
    | setCoolStepConfig e raw =>
      cases Option.some.inj hi
      rw [exec_setCoolStepConfig, indexed_of_lt _ hlt] at h
      cases h
      exact .slot _ _
    | setStallMinStepsPerSecond e rate =>
      cases Option.some.inj hi
      rw [exec_setStallMinStepsPerSecond, indexed_of_lt _ hlt] at h
      cases h
      exact .field _ _ (fun _ => rfl) (fun _ => rfl)
    | getMicrostepping e =>
      cases Option.some.inj hi
      rw [exec_getMicrostepping, indexed_of_lt _ hlt] at h
      cases h
      exact .read _
    | getChopperConfig e =>
      cases Option.some.inj hi
      rw [exec_getChopperConfig, indexed_of_lt _ hlt] at h
      cases h
      exact .read _
    | isEnabled e =>
      cases Option.some.inj hi
      rw [exec_isEnabled, indexed_of_lt _ hlt] at h
      cases h
      exact .read _
    | readLiveStatus e =>
      cases Option.some.inj hi
      rw [exec_readLiveStatus, indexed_of_lt _ hlt] at h
      cases h
      exact .read _
    | readAccumulatedStatus e mask =>
      cases Option.some.inj hi
      rw [exec_readAccumulatedStatus, indexed_of_lt _ hlt] at h
      cases h
      exact .field _ _ (fun _ => rfl) (fun _ => rfl)
    | appendStatusReport e =>
      cases Option.some.inj hi
      rw [exec_appendStatusReport, indexed_of_lt _ hlt] at h
      cases h
      exact .field _ _ (fun _ => rfl) (fun _ => rfl)
    | appendStallConfig e =>
      cases Option.some.inj hi
      rw [exec_appendStallConfig, indexed_of_lt _ hlt] at h
      cases h
      exact .read _

/-- No indexed command changes anything but one record and the response. -/
theorem exec_indexed_frame {i : Instr} {d : Nat} {s t : State} (hi : i.driverIndex = some d)
    (h : exec i s = .next t) : State.OnlyRecordChanged d s t := by
  have hread : ∀ ok v, State.OnlyRecordChanged d s (s.respond ok v) := fun ok v => by
    have := State.onlyRecordChanged_update s d id ok v
    rwa [State.updateDriver_id] at this
  rcases exec_indexed_cases hi h with ⟨-, rfl⟩ | ⟨-, he⟩
  · exact hread _ _
  · cases he with
    | failed => exact hread _ _
    | read v => exact hread _ _
    | slot sl f => exact State.onlyRecordChanged_configureSlot s d sl f
    | field f v => exact State.onlyRecordChanged_update s d f true v

end Sys2Proof.Machine
end

