-- ==== Sys2Proof/Laws/Chain.lean ====
section
/-! SUPPORT. What the completion handler does to the records, the trace and the ports, said once over the state before
the event. -/

namespace Sys2Proof.Machine

/-! ### START -/

/-- START looks at the bitmap and the slots of a record and at nothing else (40_transfer_scheduler.md R111). -/
theorem Driver.nextTransfer_congr {r q : Driver} (hp : r.pend = q.pend) (hr : r.reg = q.reg) :
    r.nextTransfer.1 = q.nextTransfer.1 ∧ r.nextTransfer.2.1 = q.nextTransfer.2.1
      ∧ r.nextTransfer.2.2.pend = q.nextTransfer.2.2.pend := by
  unfold Driver.nextTransfer
  rw [hp, hr]
  cases Pending.lowestSet q.pend <;> simp [hp]

/-- Nothing below the slot the selector answers is pending (40_transfer_scheduler.md R112). -/
theorem Pending.isMarked_below_lowestSet {p : Pending} {s u : Slot} (h : Pending.lowestSet p = some s)
    (hu : u.index < s.index) : Pending.isMarked p u = false := by
  revert h hu
  cases s <;> cases u <;> (revert p; decide)

/-- The selector answers nothing only for the empty bitmap. -/
theorem Pending.eq_zero_of_lowestSet {p : Pending} (h : Pending.lowestSet p = none) : p = 0 := by
  revert h
  revert p
  decide

/-- `Driver.nextTransfer` is what `Driver.Sends` says of START. -/
theorem Driver.nextTransfer_sends (r : Driver) :
    r.Sends r.nextTransfer.1 r.nextTransfer.2.1 r.nextTransfer.2.2.pend := by
  rcases r.nextTransfer_cases with ⟨sl, h, he⟩ | ⟨h, he⟩
  · rw [he]
    exact .inl ⟨sl, Pending.isMarked_of_lowestSet h, fun _ hu => Pending.isMarked_below_lowestSet h hu, rfl, rfl, rfl⟩
  · rw [he]
    have h0 := Pending.eq_zero_of_lowestSet h
    exact .inr ⟨h0, rfl, rfl, h0⟩

/-- What START reads of any record is the same before and after ACCUMULATE. -/
theorem nextTransfer_driver_accumulate (s : State) (d e : Nat) (rx : Word) (iv : BitVec 32) :
    ((accumulate d rx iv s).driver e).nextTransfer.1 = (s.driver e).nextTransfer.1
      ∧ ((accumulate d rx iv s).driver e).nextTransfer.2.1 = (s.driver e).nextTransfer.2.1
      ∧ ((accumulate d rx iv s).driver e).nextTransfer.2.2.pend = (s.driver e).nextTransfer.2.2.pend := by
  have hd := driver_accumulate s d e rx iv
  refine Driver.nextTransfer_congr ?_ ?_ <;> rw [hd] <;> split
  · rename_i h; rw [h.1]; rfl
  · rfl
  · rename_i h; rw [h.1]; rfl
  · rfl

/-! ### The powered branch -/

/-- The bitmaps after the powered branch: the next driver's as START leaves it, every other as it was. -/
theorem pend_advanceChain (s : State) (d e : Nat) (rx : Word) (iv : BitVec 32) :
    ((advanceChain d rx iv s).driver e).pend =
      if e = (d + 1) % s.n ∧ (d + 1) % s.n < s.drivers.length then (s.driver e).nextTransfer.2.2.pend
      else (s.driver e).pend := by
  unfold advanceChain
  rw [driver_startTransfer]
  have hl : (accumulate d rx iv s).drivers.length = s.drivers.length := by simp [accumulate]
  rw [hl]
  by_cases h : e = (d + 1) % s.n ∧ (d + 1) % s.n < s.drivers.length
  · rw [if_pos h, if_pos h, (nextTransfer_driver_accumulate s d _ rx iv).2.2, ← h.1]
  · rw [if_neg h, if_neg h, driver_accumulate]
    split
    · rename_i h2; rw [h2.1]; rfl
    · rfl

/-- The records after the powered branch, their bitmaps apart. -/
theorem driver_advanceChain (s : State) (d e : Nat) (rx : Word) (iv : BitVec 32) :
    (advanceChain d rx iv s).driver e =
      { (if e = d ∧ d < s.drivers.length then (s.driver d).accumulate s.cfg rx iv else s.driver e) with
        pend := ((advanceChain d rx iv s).driver e).pend } := by
  have h : ∀ p, { (advanceChain d rx iv s).driver e with pend := p } =
      { (accumulate d rx iv s).driver e with pend := p } := by
    intro p
    unfold advanceChain
    rw [driver_startTransfer]
    split
    · rename_i h; rw [h.1, Driver.nextTransfer_record]
    · rfl
  have h2 := h ((advanceChain d rx iv s).driver e).pend
  rw [driver_accumulate] at h2
  exact h2

@[simp] theorem advanceChain_length (s : State) (d : Nat) (rx : Word) (iv : BitVec 32) :
    (advanceChain d rx iv s).drivers.length = s.drivers.length := by
  simp [advanceChain, startTransfer, accumulate]

/-- The powered branch adds the word received and the next transfer to the trace. -/
theorem trace_advanceChain (s : State) (d : Nat) (rx : Word) (iv : BitVec 32) :
    (advanceChain d rx iv s).trace = s.trace ++ [.rx d rx iv, .tx ((d + 1) % s.n)
      (s.driver ((d + 1) % s.n)).nextTransfer.1 (s.driver ((d + 1) % s.n)).nextTransfer.2.1] := by
  have h := nextTransfer_driver_accumulate s d ((d + 1) % s.n) rx iv
  rw [← h.1, ← h.2.1]
  simp [advanceChain, startTransfer, accumulate]

/-- The powered branch asks Motion once and starts one transfer. -/
theorem ports_advanceChain (s : State) (d : Nat) (rx : Word) (iv : BitVec 32) :
    (advanceChain d rx iv s).ports = s.ports ++ [.stepIntervalQuery (s.cfg.axis d) (s.driver d).mshift iv,
      .busStart (s.cfg.select ((d + 1) % s.n)) (s.driver ((d + 1) % s.n)).nextTransfer.2.1] := by
  have h := nextTransfer_driver_accumulate s d ((d + 1) % s.n) rx iv
  rw [← h.2.1]
  simp [advanceChain, startTransfer, accumulate]

/-- Releasing the select signal first changes no record the powered branch leaves. -/
@[simp] theorem driver_advanceChain_busEnd (s : State) (d e f : Nat) (rx : Word) (iv : BitVec 32) :
    (advanceChain d rx iv (s.busEnd f)).driver e = (advanceChain d rx iv s).driver e := by
  have hd : ∀ e, (accumulate d rx iv (s.busEnd f)).driver e = (accumulate d rx iv s).driver e := fun e =>
    State.driver_congr rfl e
  have hl : (accumulate d rx iv (s.busEnd f)).drivers.length = (accumulate d rx iv s).drivers.length := rfl
  unfold advanceChain
  rw [State.busEnd_n, driver_startTransfer, driver_startTransfer, hl, hd, hd]

/-! ### COMPLETE -/

/-- A COMPLETE taken while powered. -/
theorem exec_complete_powered {s : State} {d : Nat} (rx : Word) (iv : BitVec 32) (hc : s.cur = some d)
    (hi : s.irqEn = true) (hp : s.powered = true) :
    exec (.complete rx iv) s = .next (advanceChain d rx iv (s.busEnd d)).noResponse := by
  simp only [exec, execComplete, hc, hi, completionHandler, hp, if_true]

/-- A COMPLETE taken while unpowered. -/
theorem exec_complete_unpowered {s : State} {d : Nat} (rx : Word) (iv : BitVec 32) (hc : s.cur = some d)
    (hi : s.irqEn = true) (hp : s.powered = false) :
    exec (.complete rx iv) s = .next (haltChain d (s.busEnd d)).noResponse := by
  simp only [exec, execComplete, hc, hi, completionHandler, hp, if_true, Bool.false_eq_true, if_false]

end Sys2Proof.Machine
end

