-- ==== Sys2Proof/Laws/Encode.lean ====
section
/-! SUPPORT. The fields of the words an encoder writes. -/

namespace Sys2Proof

@[simp] theorem opcodeField_commandWord (op : BitVec 8) (d : Nat) (v : BitVec 32) :
    opcodeField (commandWord op d v) = op := by
  refine BitVec.eq_of_getLsbD_eq fun i hi => ?_
  simp only [opcodeField, commandWord, BitVec.getLsbD_extractLsb', BitVec.getLsbD_append]
  have h1 : ¬ 56 + i < 32 := by omega
  have h2 : ¬ 56 + i - 32 < 16 := by omega
  have h3 : ¬ 56 + i - 32 - 16 < 8 := by omega
  have h4 : 56 + i - 32 - 16 - 8 = i := by omega
  simp [hi, h1, h2, h3, h4]

@[simp] theorem drvField_commandWord (op : BitVec 8) (d : Nat) (v : BitVec 32) :
    drvField (commandWord op d v) = d % 2 ^ 8 := by
  have h : (commandWord op d v).extractLsb' 48 8 = BitVec.ofNat 8 d := by
    refine BitVec.eq_of_getLsbD_eq fun i hi => ?_
    simp only [commandWord, BitVec.getLsbD_extractLsb', BitVec.getLsbD_append]
    have h1 : ¬ 48 + i < 32 := by omega
    have h2 : ¬ 48 + i - 32 < 16 := by omega
    have h3 : 48 + i - 32 - 16 < 8 := by omega
    have h4 : 48 + i - 32 - 16 = i := by omega
    simp [hi, h1, h2, h4]
  rw [drvField, h, BitVec.toNat_ofNat]

@[simp] theorem operandField_commandWord (op : BitVec 8) (d : Nat) (v : BitVec 32) :
    operandField (commandWord op d v) = v := by
  refine BitVec.eq_of_getLsbD_eq fun i hi => ?_
  simp only [operandField, commandWord, BitVec.getLsbD_extractLsb', BitVec.getLsbD_append]
  simp [hi]

@[simp] theorem opcodeField_eventWord (rx : Word) (iv : BitVec 32) : opcodeField (eventWord rx iv) = 0xC0#8 := by
  refine BitVec.eq_of_getLsbD_eq fun i hi => ?_
  simp only [opcodeField, eventWord, BitVec.getLsbD_extractLsb', BitVec.getLsbD_append]
  have h1 : ¬ 56 + i < 32 := by omega
  have h2 : ¬ 56 + i - 32 < maxWordBits := by simp only [maxWordBits]; omega
  have h3 : 56 + i - 32 - maxWordBits = i := by simp only [maxWordBits]; omega
  simp [hi, h1, h2, h3]

/-- The `W` low bits of the received word come back. -/
@[simp] theorem rxField_eventWord (c : Cfg) (rx : Word) (iv : BitVec 32) :
    rxField c (eventWord rx iv) = rx &&& c.wordMask := by
  unfold rxField
  congr 1
  refine BitVec.eq_of_getLsbD_eq fun i hi => ?_
  simp only [eventWord, BitVec.getLsbD_extractLsb', BitVec.getLsbD_append]
  have h1 : ¬ 32 + i < 32 := by omega
  have h2 : 32 + i - 32 < maxWordBits := by omega
  have h3 : 32 + i - 32 = i := by omega
  simp [hi, h3]

@[simp] theorem ivField_eventWord (rx : Word) (iv : BitVec 32) : ivField (eventWord rx iv) = iv := by
  refine BitVec.eq_of_getLsbD_eq fun i hi => ?_
  simp only [ivField, eventWord, BitVec.getLsbD_extractLsb', BitVec.getLsbD_append]
  simp [hi]

@[simp] theorem getElem_bitOperand (b : Bool) : (bitOperand b)[0] = b := by
  cases b <;> decide

/-- The operand word of `SetMicrostepping` (30_encoding.md R85). -/
def microsteppingOperand (shift : Nat) (interp : Bool) : BitVec 32 :=
  0#23 ++ BitVec.ofBool interp ++ BitVec.ofNat 8 shift

theorem extractLsb'_microsteppingOperand (shift : Nat) (interp : Bool) :
    (microsteppingOperand shift interp).extractLsb' 0 8 = BitVec.ofNat 8 shift := by
  refine BitVec.eq_of_getLsbD_eq fun i hi => ?_
  simp only [microsteppingOperand, BitVec.getLsbD_extractLsb', BitVec.getLsbD_append]
  simp [hi]

@[simp] theorem toNat_microsteppingOperand_mod (shift : Nat) (interp : Bool) :
    (microsteppingOperand shift interp).toNat % 256 = shift % 256 := by
  have h := congrArg BitVec.toNat (extractLsb'_microsteppingOperand shift interp)
  simpa using h

@[simp] theorem getElem_microsteppingOperand (shift : Nat) (interp : Bool) :
    (microsteppingOperand shift interp)[8] = interp := by
  rw [BitVec.getElem_eq_testBit_toNat, BitVec.testBit_toNat]
  simp only [microsteppingOperand, BitVec.getLsbD_append]
  cases interp <;> simp

theorem encode_setMicrostepping (d shift : Nat) (interp : Bool) :
    encode (.setMicrostepping d shift interp) = commandWord 0x10 d (microsteppingOperand shift interp) := rfl

/-- A word comes back from the operand it was written to (30_encoding.md R85). -/
theorem extractLsb'_commandWord (op : BitVec 8) (d : Nat) (v : Word) :
    (commandWord op d (v.setWidth 32)).extractLsb' 0 maxWordBits = v := by
  refine BitVec.eq_of_getLsbD_eq fun i hi => ?_
  simp only [commandWord, BitVec.getLsbD_extractLsb', BitVec.getLsbD_append, BitVec.getLsbD_setWidth, Nat.zero_add]
  have h1 : i < 32 := by simp only [maxWordBits] at hi; omega
  simp [hi, h1]

@[simp] theorem maskField_commandWord (c : Cfg) (op : BitVec 8) (d : Nat) (v : Word) :
    maskField c (commandWord op d (v.setWidth 32)) = v &&& c.wordMask := by
  rw [maskField, extractLsb'_commandWord]

@[simp] theorem rawField_commandWord (c : Cfg) (s : Slot) (op : BitVec 8) (d : Nat) (v : Word) :
    rawField c s (commandWord op d (v.setWidth 32)) = v &&& c.payloadMask.get s := by
  rw [rawField, extractLsb'_commandWord]

end Sys2Proof
end

