-- ==== Sys2Proof/Laws/PerInstr.lean ====
section
/-! SUPPORT. Statements for every operation, one lemma per constructor: the encoder writes the opcode of the opcode map and
the driver index (30_encoding.md R81, R83). -/

namespace Sys2Proof.Laws

/-- The opcode column of 30_encoding.md R83. -/
def OpcodeByte.opcode : Instr → BitVec 8
  | .init _ => 0x01
  | .spin _ => 0x02
  | .forceOff => 0x03
  | .setMicrostepping _ _ _ => 0x10
  | .setCurrent _ _ => 0x11
  | .setChopperConfig _ _ => 0x12
  | .enable _ _ => 0x13
  | .setStallThreshold _ _ => 0x14
  | .setStallFilter _ _ => 0x15
  | .setCoolStepConfig _ _ => 0x16
  | .setStallMinStepsPerSecond _ _ => 0x17
  | .getMicrostepping _ => 0x20
  | .getChopperConfig _ => 0x21
  | .isEnabled _ => 0x22
  | .readLiveStatus _ => 0x23
  | .readAccumulatedStatus _ _ => 0x24
  | .appendStatusReport _ => 0x30
  | .appendStallConfig _ => 0x31
  | .complete _ _ => 0xC0

/-- The encoded word carries the operation's opcode, and an indexed command its driver index. -/
def OpcodeByte.Statement (i : Instr) : Prop :=
  opcodeField (encode i) = OpcodeByte.opcode i
    ∧ ∀ d, i.driverIndex = some d → drvField (encode i) = d % 2 ^ 8

theorem OpcodeByte.of_command {i : Instr} {op : BitVec 8} {d : Nat} {v : BitVec 32} (h : encode i = commandWord op d v)
    (ho : OpcodeByte.opcode i = op) (hd : ∀ e, i.driverIndex = some e → e = d) : OpcodeByte.Statement i := by
  refine ⟨by rw [h, ho, opcodeField_commandWord], fun e he => ?_⟩
  rw [h, drvField_commandWord, hd e he]

theorem OpcodeByte.init (count : Nat) : OpcodeByte.Statement (.init count) :=
  OpcodeByte.of_command rfl rfl (by simp [Instr.driverIndex])
theorem OpcodeByte.spin (powered : Bool) : OpcodeByte.Statement (.spin powered) :=
  OpcodeByte.of_command rfl rfl (by simp [Instr.driverIndex])
theorem OpcodeByte.forceOff : OpcodeByte.Statement .forceOff :=
  OpcodeByte.of_command rfl rfl (by simp [Instr.driverIndex])
theorem OpcodeByte.setMicrostepping (d shift : Nat) (interp : Bool) :
    OpcodeByte.Statement (.setMicrostepping d shift interp) :=
  OpcodeByte.of_command rfl rfl (by simp [Instr.driverIndex])
theorem OpcodeByte.setCurrent (d current : Nat) : OpcodeByte.Statement (.setCurrent d current) :=
  OpcodeByte.of_command rfl rfl (by simp [Instr.driverIndex])
theorem OpcodeByte.setChopperConfig (d : Nat) (raw : Word) : OpcodeByte.Statement (.setChopperConfig d raw) :=
  OpcodeByte.of_command rfl rfl (by simp [Instr.driverIndex])
theorem OpcodeByte.enable (d : Nat) (on : Bool) : OpcodeByte.Statement (.enable d on) :=
  OpcodeByte.of_command rfl rfl (by simp [Instr.driverIndex])
theorem OpcodeByte.setStallThreshold (d : Nat) (v : Int) : OpcodeByte.Statement (.setStallThreshold d v) :=
  OpcodeByte.of_command rfl rfl (by simp [Instr.driverIndex])
theorem OpcodeByte.setStallFilter (d : Nat) (on : Bool) : OpcodeByte.Statement (.setStallFilter d on) :=
  OpcodeByte.of_command rfl rfl (by simp [Instr.driverIndex])
theorem OpcodeByte.setCoolStepConfig (d : Nat) (raw : Word) : OpcodeByte.Statement (.setCoolStepConfig d raw) :=
  OpcodeByte.of_command rfl rfl (by simp [Instr.driverIndex])
theorem OpcodeByte.setStallMinStepsPerSecond (d rate : Nat) :
    OpcodeByte.Statement (.setStallMinStepsPerSecond d rate) :=
  OpcodeByte.of_command rfl rfl (by simp [Instr.driverIndex])
theorem OpcodeByte.getMicrostepping (d : Nat) : OpcodeByte.Statement (.getMicrostepping d) :=
  OpcodeByte.of_command rfl rfl (by simp [Instr.driverIndex])
theorem OpcodeByte.getChopperConfig (d : Nat) : OpcodeByte.Statement (.getChopperConfig d) :=
  OpcodeByte.of_command rfl rfl (by simp [Instr.driverIndex])
theorem OpcodeByte.isEnabled (d : Nat) : OpcodeByte.Statement (.isEnabled d) :=
  OpcodeByte.of_command rfl rfl (by simp [Instr.driverIndex])
theorem OpcodeByte.readLiveStatus (d : Nat) : OpcodeByte.Statement (.readLiveStatus d) :=
  OpcodeByte.of_command rfl rfl (by simp [Instr.driverIndex])
theorem OpcodeByte.readAccumulatedStatus (d : Nat) (mask : Word) :
    OpcodeByte.Statement (.readAccumulatedStatus d mask) :=
  OpcodeByte.of_command rfl rfl (by simp [Instr.driverIndex])
theorem OpcodeByte.appendStatusReport (d : Nat) : OpcodeByte.Statement (.appendStatusReport d) :=
  OpcodeByte.of_command rfl rfl (by simp [Instr.driverIndex])
theorem OpcodeByte.appendStallConfig (d : Nat) : OpcodeByte.Statement (.appendStallConfig d) :=
  OpcodeByte.of_command rfl rfl (by simp [Instr.driverIndex])
theorem OpcodeByte.complete (rx : Word) (iv : BitVec 32) : OpcodeByte.Statement (.complete rx iv) :=
  ⟨opcodeField_eventWord rx iv, by simp [Instr.driverIndex]⟩

end Sys2Proof.Laws
end

