-- ==== Sys2Proof/Laws/Run.lean ====
section
/-! SUPPORT. Runs of several steps, taken apart and put together. -/

namespace Sys2Proof.Machine

theorem run_zero (s : State) : Host.Core.run Sys2Proof.core 0 s = .next s := rfl

/-- A run of `k + 1` steps is one step and a run of `k`. -/
theorem run_succ_of_next {s u : State} (k : Nat) (h : step s = .next u) :
    Host.Core.run Sys2Proof.core (k + 1) s = Host.Core.run Sys2Proof.core k u := by
  have h' : Sys2Proof.core.step s = Host.Outcome.next u := h
  simp only [Host.Core.run, h']

/-- The first step of a run that completes. -/
theorem run_succ_next {k : Nat} {s t : State} (h : Host.Core.run Sys2Proof.core (k + 1) s = .next t) :
    ∃ u, step s = .next u ∧ Host.Core.run Sys2Proof.core k u = .next t := by
  cases hs : step s with
  | next u => exact ⟨u, rfl, by rwa [run_succ_of_next k hs] at h⟩
  | fault r =>
    have h' : Sys2Proof.core.step s = Host.Outcome.fault r := hs
    simp only [Host.Core.run, h'] at h
    cases h
  | refused r =>
    have h' : Sys2Proof.core.step s = Host.Outcome.refused r := hs
    simp only [Host.Core.run, h'] at h
    cases h

/-- No operation reads or writes the inputs. -/
theorem exec_inputs {i : Instr} {s t : State} (h : exec i s = .next t) : t.inputs = s.inputs := by
  cases hi : i.driverIndex with
  | some d => exact (exec_indexed_frame hi h).inputs
  | none =>
    cases i with
    | init c =>
      simp only [exec, execInit] at h
      split at h <;> cases h <;> simp [State.initialise]
    | spin p =>
      rcases execSpin_cases h with ⟨_, _, rfl⟩ | ⟨_, _, rfl⟩ | ⟨_, rfl⟩ <;> simp
      rcases s.powerRestored_cases with ⟨_, _, h⟩ | ⟨_, h⟩ <;> simp [h]
    | forceOff => cases h; simp
    | complete rx iv =>
      obtain ⟨d, _, _, ⟨_, rfl⟩ | ⟨_, rfl⟩⟩ := execComplete_cases h <;> simp [advanceChain]
    | _ => cases hi

/-- A step takes the first input and no other. -/
theorem step_inputs {s t : State} (h : step s = .next t) : t.inputs = s.inputs.tail := by
  rcases step_cases h with ⟨hi, rfl⟩ | ⟨i, rest, hi, rfl | ⟨j, -, hj⟩ | ⟨_, rfl⟩⟩
  · simp [hi, State.idle]
  · simp [hi]
  · simp [hi, exec_inputs hj]
  · simp [hi]

/-- No step brings a reset input. -/
theorem State.NoResetToCome.step {s t : State} (hn : s.NoResetToCome) (h : step s = .next t) : t.NoResetToCome := by
  unfold State.NoResetToCome
  rw [step_inputs h]
  exact fun hm => hn (List.mem_of_mem_tail hm)

/-- Everything a step can do when no reset input is to come. -/
theorem step_cases_of_noReset {s t : State} (hn : s.NoResetToCome) (h : step s = .next t) :
    (s.inputs = [] ∧ t = s.idle)
      ∨ ∃ i rest, s.inputs = i :: rest ∧
          (t = State.fail { s with inputs := rest } ∨ ∃ instr, i.Issues s.cfg instr ∧ exec instr { s with inputs := rest } = .next t) := by
  rcases step_cases h with hi | ⟨i, rest, hi, hf | he | ⟨rfl, _⟩⟩
  · exact .inl hi
  · exact .inr ⟨i, rest, hi, .inl hf⟩
  · exact .inr ⟨i, rest, hi, .inr he⟩
  · exact absurd (hi ▸ List.mem_cons_self) hn

/-- What a run adds to the trace. -/
theorem State.traceSince_append {s t : State} {l : List BusEvent} (h : t.trace = s.trace ++ l) :
    s.traceSince t = l := by
  unfold State.traceSince
  rw [h, List.drop_left]

end Sys2Proof.Machine
end

