-- ==== Sys2Proof/Machine/Assembly.lean ====
section
/-! DEFINITION. The textual syntax of 30_encoding.md R89: one operation a line, its operands, its pseudo-operations, as a
function from a line to the 64-bit words it stands for (log entry 21). -/

namespace Sys2Proof.Assembly

/-- The value of a digit, hexadecimal letters in either case. -/
def digit (ch : Char) : Option Nat :=
  if '0' ≤ ch ∧ ch ≤ '9' then some (ch.toNat - '0'.toNat)
  else if 'a' ≤ ch ∧ ch ≤ 'f' then some (ch.toNat - 'a'.toNat + 10)
  else if 'A' ≤ ch ∧ ch ≤ 'F' then some (ch.toNat - 'A'.toNat + 10)
  else none

/-- The digits of a number in a base, added to what was read before. -/
def digits (base : Nat) : Nat → List Char → Option Nat
  | acc, [] => some acc
  | acc, ch :: rest =>
    match digit ch with
    | some v => if v < base then digits base (acc * base + v) rest else none
    | none => none

/-- An unsigned number: decimal, `0x` hexadecimal or `0b` binary. -/
def unsigned : List Char → Option Nat
  | '0' :: 'x' :: ch :: rest => digits 16 0 (ch :: rest)
  | '0' :: 'b' :: ch :: rest => digits 2 0 (ch :: rest)
  | ch :: rest => digits 10 0 (ch :: rest)
  | [] => none

/-- A number, which may carry a minus sign. -/
def number : List Char → Option Int
  | '-' :: rest => (unsigned rest).map fun n => -(n : Int)
  | text => (unsigned text).map fun n => (n : Int)

/-- White space dropped at both ends. -/
def trim (text : List Char) : List Char :=
  let spaces := fun (t : List Char) => t.dropWhile fun ch => ch == ' ' || ch == '\t'
  (spaces (spaces text).reverse).reverse

/-- The text split at commas. -/
def commaParts : List Char → List (List Char)
  | [] => [[]]
  | ',' :: rest => [] :: commaParts rest
  | ch :: rest =>
    match commaParts rest with
    | part :: parts => (ch :: part) :: parts
    | [] => [[ch]]

/-- The operands of a line: nothing, or numbers separated by commas. -/
def operands (text : List Char) : Option (List Int) :=
  if trim text = [] then some [] else (commaParts text).mapM fun part => number (trim part)

/-- A driver index, 8 bits unsigned. -/
def driver (d : Int) : Option Nat :=
  if 0 ≤ d ∧ d < 2 ^ 8 then some d.toNat else none

/-- An operand, 32 bits unsigned or two's complement. -/
def operand (v : Int) : Option (BitVec 32) :=
  if -(2 ^ 31) ≤ v ∧ v < 2 ^ 32 then some (BitVec.ofInt 32 v) else none

/-- A command with its driver index and its operand. -/
def command (opcode : BitVec 8) (d v : Int) : Option (List StimulusWord) :=
  match driver d, operand v with
  | some d, some v => some [commandWord opcode d v]
  | _, _ => none

/-- The words of an operation, or of a pseudo-operation's expansion, from its mnemonic and operands (30_encoding.md R83,
R84, R89). -/
def operation (c : Cfg) (mnemonic : String) (ops : List Int) : Option (List StimulusWord) :=
  match mnemonic, ops with
  | "Init", [count] => command 0x01 0 count
  | "Spin", [powered] => command 0x02 0 powered
  | "ForceOff", [] => command 0x03 0 0
  | "SetMicrostepping", [d, shift, interp] =>
    if 0 ≤ shift ∧ shift < 2 ^ 8 ∧ 0 ≤ interp ∧ interp < 2 then command 0x10 d (shift + 256 * interp) else none
  | "SetCurrent", [d, current] => command 0x11 d current
  | "SetChopperConfig", [d, raw] => command 0x12 d raw
  | "Enable", [d, on] => command 0x13 d on
  | "SetStallThreshold", [d, v] => command 0x14 d v
  | "SetStallFilter", [d, on] => command 0x15 d on
  | "SetCoolStepConfig", [d, raw] => command 0x16 d raw
  | "SetStallMinStepsPerSecond", [d, rate] => command 0x17 d rate
  | "GetMicrostepping", [d] => command 0x20 d 0
  | "GetChopperConfig", [d] => command 0x21 d 0
  | "IsEnabled", [d] => command 0x22 d 0
  | "ReadLiveStatus", [d] => command 0x23 d 0
  | "ReadAccumulatedStatus", [d, mask] => command 0x24 d mask
  | "AppendStatusReport", [d] => command 0x30 d 0
  | "AppendStallConfig", [d] => command 0x31 d 0
  | "COMPLETE", [rx, iv] =>
    if 0 ≤ rx ∧ rx < 2 ^ c.wordBits ∧ 0 ≤ iv ∧ iv < 2 ^ 32 then
      some [eventWord (BitVec.ofInt maxWordBits rx) (BitVec.ofInt 32 iv)]
    else none
  | "PowerOn", [] => command 0x02 0 1
  | "PowerOff", [] => command 0x02 0 0
  | "Disable", [d] => command 0x13 d 0
  | "ClearAccumulated", [d] => command 0x24 d 0
  | "PeekAccumulated", [d] => command 0x24 d (2 ^ c.wordBits - 1)
  | "POLL", [n] => if 0 ≤ n then some (List.replicate n.toNat (eventWord 0 0)) else none
  | _, _ => none

/-- The words of one line; `;` starts a comment, an empty line stands for nothing (30_encoding.md R89). -/
def line (c : Cfg) (text : List Char) : Option (List StimulusWord) :=
  let code := trim (text.takeWhile fun ch => ch != ';')
  let isSpace := fun (ch : Char) => ch == ' ' || ch == '\t'
  if code = [] then some []
  else
    match operands (code.dropWhile fun ch => !isSpace ch) with
    | some ops => operation c (String.ofList (code.takeWhile fun ch => !isSpace ch)) ops
    | none => none

/-- The words of a program, its lines in order. -/
def program (c : Cfg) (lines : List String) : Option (List StimulusWord) :=
  (lines.mapM fun l => line c l.toList).map List.flatten

end Sys2Proof.Assembly
end

