-- ==== Sys2Proof/Tests/Slice0.lean ====
section
/-! SUPPORT. Tests: the well-formedness smoke tests, the decoder on words written out in the spec, one step per operation on
cases of 95_test_vectors.md, and for every statement with hypotheses a concrete case that meets them. The expected values are
those of 95_test_vectors.md (P1 to P4, X1 to X6, V1 to V25), each test naming its vector. -/

namespace Sys2Proof.Tests

open Sys2Proof Sys2Proof.Machine

/-! ### Helpers -/

/-- A driver of the state S0 of 95_test_vectors.md: as `Init` leaves it, with everything sent. -/
def driver0 : Driver := { initialDriver Cfg.reference with pend := 0 }

/-- The state S0 of 95_test_vectors.md: two drivers, powered, a poll of driver 0 in flight. -/
def s0 : State :=
  { State.reset with
    n := 2, inited := true, powered := true, cur := some 0, irqEn := true
    drivers := driver0 :: driver0 :: List.replicate 8 Driver.blank }

/-- S0 with its power lost and its transfer still in flight. -/
def draining : State := { s0 with powered := false }

/-- S0 with its power lost and its chain stopped. -/
def stopped : State := { s0 with powered := false, cur := none, irqEn := false }

/-- A state with one stimulus word to take. -/
def given (s : State) (w : StimulusWord) : State := { s with inputs := [.word w] }

/-- What an outcome shows of its next state, nothing if it stops. -/
def shows {α : Type} (f : State → α) : Result → Option α
  | .next t => some (f t)
  | .fault _ => none
  | .refused _ => none

/-- One step on one word, and what the next state shows. -/
def onWord {α : Type} (s : State) (w : StimulusWord) (f : State → α) : Option α := shows f (step (given s w))

/-! ### The reference configuration and the ill-formed configurations (00_scope.md R5) -/

theorem reference_valid : Cfg.reference.Valid where
  maxDrivers_pos := by decide
  maxDrivers_le := by decide
  wordBits_pos := by decide
  wordBits_le := by decide
  loadBits_pos := by decide
  tag_fits := fun s => by cases s <;> decide
  payload_fits := fun s => by cases s <;> decide
  tag_payload := fun s => by cases s <;> decide
  tags_distinguishable := fun s t h => by cases s <;> cases t <;> first | exact absurd rfl h | decide
  slotLayout :=
    { mres_inside := by unfold Field.Inside; decide
      intpol_inside := by unfold Field.Inside; decide
      cs_inside := by unfold Field.Inside; decide
      sgt_inside := by unfold Field.Inside; decide
      sfilt_inside := by unfold Field.Inside; decide
      toff_inside := by unfold Field.Inside; decide
      tbl_inside := by unfold Field.Inside; decide
      rdsel_inside := by unfold Field.Inside; decide
      vsense_inside := by unfold Field.Inside; decide
      mres_intpol := by unfold Field.Disjoint; decide
      cs_sgt := by unfold Field.Disjoint; decide
      cs_sfilt := by unfold Field.Disjoint; decide
      sgt_sfilt := by unfold Field.Disjoint; decide
      toff_tbl := by unfold Field.Disjoint; decide
      rdsel_vsense := by unfold Field.Disjoint; decide
      sgt_width := by decide
      intpol_width := by decide
      sfilt_width := by decide }
  statusLayout :=
    { inside := by unfold Field.Inside; decide
      disjoint := by unfold Field.Disjoint; decide
      load_width := by decide
      sg_width := by decide }
  mresCodes_length := by decide
  mresCodes_nodup := by decide
  mresCodes_fit := by decide
  defaults_tag := fun s => by cases s <;> decide
  defaults_chopper := by decide
  defaultShift_le := by decide
  defaults_mres := by decide
  defaults_intpol := by decide
  current_bounds := by decide
  divisor_pos := by decide
  current_nonneg := by decide
  current_fits := by decide
  stepClockRate_pos := by decide
  stepClockRate_lt := by decide
  defaultMinSps_lt := by decide
  axisOf_total := by decide
  selectMap_total := by decide
  selectMap_nodup := by decide

/-- The reference configuration with another slot layout. -/
def withSlots (f : SlotLayout → SlotLayout) : Cfg := { Cfg.reference with slotLayout := f Cfg.reference.slotLayout }

/-- The reference configuration with another status layout. -/
def withStatus (f : StatusLayout → StatusLayout) : Cfg :=
  { Cfg.reference with statusLayout := f Cfg.reference.statusLayout }

/-- A field outside every payload mask of the reference configuration. -/
def outside : Field := ⟨19, 1⟩

theorem test_cfg_maxDrivers_pos : ¬ ({ Cfg.reference with maxDrivers := 0 } : Cfg).Valid :=
  fun h => absurd h.maxDrivers_pos (by decide)
theorem test_cfg_maxDrivers_le : ¬ ({ Cfg.reference with maxDrivers := 256 } : Cfg).Valid :=
  fun h => absurd h.maxDrivers_le (by decide)
theorem test_cfg_wordBits_pos : ¬ ({ Cfg.reference with wordBits := 0 } : Cfg).Valid :=
  fun h => absurd h.wordBits_pos (by decide)
theorem test_cfg_wordBits_le : ¬ ({ Cfg.reference with wordBits := 25 } : Cfg).Valid :=
  fun h => absurd h.wordBits_le (by decide)
theorem test_cfg_loadBits_pos : ¬ ({ Cfg.reference with loadBits := 0 } : Cfg).Valid :=
  fun h => absurd h.loadBits_pos (by decide)
theorem test_cfg_tag_fits : ¬ ({ Cfg.reference with wordBits := 19 } : Cfg).Valid :=
  fun h => absurd (h.tag_fits .smartEnable) (by decide)
theorem test_cfg_payload_fits : ¬ ({ Cfg.reference with payloadMask := ⟨0x100000, 0, 0, 0, 0⟩ } : Cfg).Valid :=
  fun h => absurd (h.payload_fits .driveControl) (by decide)
theorem test_cfg_tag_payload : ¬ ({ Cfg.reference with tag := ⟨0x00001, 0xC0000, 0x80000, 0xE0000, 0xA0000⟩ } : Cfg).Valid :=
  fun h => absurd (h.tag_payload .driveControl) (by decide)
theorem test_cfg_tags_distinguishable :
    ¬ ({ Cfg.reference with tag := ⟨0x00000, 0xC0000, 0xC0000, 0xE0000, 0xA0000⟩ } : Cfg).Valid :=
  fun h => absurd (h.tags_distinguishable .stallGuardConfig .chopperControl (by decide)) (by decide)
theorem test_cfg_mres_inside : ¬ (withSlots fun l => { l with mres := outside }).Valid :=
  fun h => absurd h.slotLayout.mres_inside (by unfold Field.Inside; decide)
theorem test_cfg_intpol_inside : ¬ (withSlots fun l => { l with intpol := outside }).Valid :=
  fun h => absurd h.slotLayout.intpol_inside (by unfold Field.Inside; decide)
theorem test_cfg_cs_inside : ¬ (withSlots fun l => { l with cs := outside }).Valid :=
  fun h => absurd h.slotLayout.cs_inside (by unfold Field.Inside; decide)
theorem test_cfg_sgt_inside : ¬ (withSlots fun l => { l with sgt := outside }).Valid :=
  fun h => absurd h.slotLayout.sgt_inside (by unfold Field.Inside; decide)
theorem test_cfg_sfilt_inside : ¬ (withSlots fun l => { l with sfilt := outside }).Valid :=
  fun h => absurd h.slotLayout.sfilt_inside (by unfold Field.Inside; decide)
theorem test_cfg_toff_inside : ¬ (withSlots fun l => { l with toff := ⟨0, 0⟩ }).Valid :=
  fun h => absurd h.slotLayout.toff_inside (by unfold Field.Inside; decide)
theorem test_cfg_tbl_inside : ¬ (withSlots fun l => { l with tbl := outside }).Valid :=
  fun h => absurd h.slotLayout.tbl_inside (by unfold Field.Inside; decide)
theorem test_cfg_rdsel_inside : ¬ (withSlots fun l => { l with rdsel := outside }).Valid :=
  fun h => absurd h.slotLayout.rdsel_inside (by unfold Field.Inside; decide)
theorem test_cfg_vsense_inside : ¬ (withSlots fun l => { l with vsense := outside }).Valid :=
  fun h => absurd h.slotLayout.vsense_inside (by unfold Field.Inside; decide)
theorem test_cfg_mres_intpol : ¬ (withSlots fun l => { l with intpol := ⟨3, 1⟩ }).Valid :=
  fun h => absurd h.slotLayout.mres_intpol (by unfold Field.Disjoint; decide)
theorem test_cfg_cs_sgt : ¬ (withSlots fun l => { l with sgt := ⟨4, 7⟩ }).Valid :=
  fun h => absurd h.slotLayout.cs_sgt (by unfold Field.Disjoint; decide)
theorem test_cfg_cs_sfilt : ¬ (withSlots fun l => { l with sfilt := ⟨4, 1⟩ }).Valid :=
  fun h => absurd h.slotLayout.cs_sfilt (by unfold Field.Disjoint; decide)
theorem test_cfg_sgt_sfilt : ¬ (withSlots fun l => { l with sfilt := ⟨14, 1⟩ }).Valid :=
  fun h => absurd h.slotLayout.sgt_sfilt (by unfold Field.Disjoint; decide)
theorem test_cfg_toff_tbl : ¬ (withSlots fun l => { l with tbl := ⟨3, 2⟩ }).Valid :=
  fun h => absurd h.slotLayout.toff_tbl (by unfold Field.Disjoint; decide)
theorem test_cfg_rdsel_vsense : ¬ (withSlots fun l => { l with vsense := ⟨5, 1⟩ }).Valid :=
  fun h => absurd h.slotLayout.rdsel_vsense (by unfold Field.Disjoint; decide)
theorem test_cfg_sgt_width : ¬ (withSlots fun l => { l with sgt := ⟨8, 6⟩ }).Valid :=
  fun h => absurd h.slotLayout.sgt_width (by decide)
theorem test_cfg_intpol_width : ¬ (withSlots fun l => { l with intpol := ⟨9, 2⟩ }).Valid :=
  fun h => absurd h.slotLayout.intpol_width (by decide)
theorem test_cfg_sfilt_width : ¬ (withSlots fun l => { l with sfilt := ⟨15, 2⟩ }).Valid :=
  fun h => absurd h.slotLayout.sfilt_width (by decide)
theorem test_cfg_status_inside : ¬ (withStatus fun l => { l with stst := ⟨20, 1⟩ }).Valid :=
  fun h => absurd (h.statusLayout.inside ⟨20, 1⟩ (by decide)) (by unfold Field.Inside; decide)
theorem test_cfg_status_disjoint : ¬ (withStatus fun l => { l with ot := ⟨0, 1⟩ }).Valid :=
  fun h => absurd h.statusLayout.disjoint (by unfold Field.Disjoint; decide)
theorem test_cfg_load_width : ¬ (withStatus fun l => { l with load := ⟨10, 9⟩ }).Valid :=
  fun h => absurd h.statusLayout.load_width (by decide)
theorem test_cfg_sg_width : ¬ (withStatus fun l => { l with sg := ⟨8, 2⟩ }).Valid :=
  fun h => absurd h.statusLayout.sg_width (by decide)
theorem test_cfg_mresCodes_length : ¬ ({ Cfg.reference with mresCodes := [8, 7] } : Cfg).Valid :=
  fun h => absurd h.mresCodes_length (by decide)
theorem test_cfg_mresCodes_nodup : ¬ ({ Cfg.reference with mresCodes := [8, 8, 6, 5, 4, 3, 2, 1, 0] } : Cfg).Valid :=
  fun h => absurd h.mresCodes_nodup (by decide)
theorem test_cfg_mresCodes_fit : ¬ ({ Cfg.reference with mresCodes := [16, 7, 6, 5, 4, 3, 2, 1, 0] } : Cfg).Valid :=
  fun h => absurd h.mresCodes_fit (by decide)
theorem test_cfg_defaults_tag :
    ¬ ({ Cfg.reference with defaults := ⟨0x80204, 0xC0100, 0x901B4, 0xE0050, 0xA0000⟩ } : Cfg).Valid :=
  fun h => absurd (h.defaults_tag .driveControl) (by decide)
theorem test_cfg_defaults_chopper :
    ¬ ({ Cfg.reference with defaults := ⟨0x00204, 0xC0100, 0x901B0, 0xE0050, 0xA0000⟩ } : Cfg).Valid :=
  fun h => absurd h.defaults_chopper (by decide)
theorem test_cfg_defaultShift_le : ¬ ({ Cfg.reference with defaultShift := 9 } : Cfg).Valid :=
  fun h => absurd h.defaultShift_le (by decide)
theorem test_cfg_defaults_mres : ¬ ({ Cfg.reference with defaultShift := 3 } : Cfg).Valid :=
  fun h => absurd h.defaults_mres (by decide)
theorem test_cfg_defaults_intpol : ¬ ({ Cfg.reference with defaultInterp := false } : Cfg).Valid :=
  fun h => absurd h.defaults_intpol (by decide)
theorem test_cfg_current_bounds : ¬ ({ Cfg.reference with minCurrent := 2401 } : Cfg).Valid :=
  fun h => absurd h.current_bounds (by decide)
theorem test_cfg_divisor_pos : ¬ ({ Cfg.reference with currentFormula := ⟨32, -1600, 0⟩ } : Cfg).Valid :=
  fun h => absurd h.divisor_pos (by decide)
theorem test_cfg_current_nonneg : ¬ ({ Cfg.reference with minCurrent := 49 } : Cfg).Valid :=
  fun h => absurd h.current_nonneg (by decide)
theorem test_cfg_current_fits : ¬ ({ Cfg.reference with maxCurrent := 3286 } : Cfg).Valid :=
  fun h => absurd h.current_fits (by decide)
theorem test_cfg_stepClockRate_pos : ¬ ({ Cfg.reference with stepClockRate := 0 } : Cfg).Valid :=
  fun h => absurd h.stepClockRate_pos (by decide)
theorem test_cfg_stepClockRate_lt : ¬ ({ Cfg.reference with stepClockRate := 4294967296 } : Cfg).Valid :=
  fun h => absurd h.stepClockRate_lt (by decide)
theorem test_cfg_defaultMinSps_lt : ¬ ({ Cfg.reference with defaultMinSps := 4294967296 } : Cfg).Valid :=
  fun h => absurd h.defaultMinSps_lt (by decide)
theorem test_cfg_axisOf_total : ¬ ({ Cfg.reference with axisOf := [0] } : Cfg).Valid :=
  fun h => absurd h.axisOf_total (by decide)
theorem test_cfg_selectMap_total : ¬ ({ Cfg.reference with selectMap := [0] } : Cfg).Valid :=
  fun h => absurd h.selectMap_total (by decide)
theorem test_cfg_selectMap_nodup : ¬ ({ Cfg.reference with selectMap := [0, 0, 2, 3, 4, 5, 6, 7, 8, 9] } : Cfg).Valid :=
  fun h => absurd h.selectMap_nodup (by decide)

/-! ### Ill-formed operations (30_encoding.md R81, R85) -/

theorem test_wf_init : (Instr.init 4294967296).wf Cfg.reference = false := by decide
theorem test_wf_setMicrostepping_driver : (Instr.setMicrostepping 256 0 true).wf Cfg.reference = false := by decide
theorem test_wf_setMicrostepping_shift : (Instr.setMicrostepping 0 256 true).wf Cfg.reference = false := by decide
theorem test_wf_setCurrent_driver : (Instr.setCurrent 256 0).wf Cfg.reference = false := by decide
theorem test_wf_setCurrent_current : (Instr.setCurrent 0 4294967296).wf Cfg.reference = false := by decide
theorem test_wf_setChopperConfig : (Instr.setChopperConfig 256 0).wf Cfg.reference = false := by decide
theorem test_wf_setChopperConfig_raw : (Instr.setChopperConfig 0 0x20000).wf Cfg.reference = false := by decide
theorem test_wf_enable : (Instr.enable 256 true).wf Cfg.reference = false := by decide
theorem test_wf_setStallThreshold_driver : (Instr.setStallThreshold 256 0).wf Cfg.reference = false := by decide
theorem test_wf_setStallThreshold_low : (Instr.setStallThreshold 0 (-2147483649)).wf Cfg.reference = false := by decide
theorem test_wf_setStallThreshold_high : (Instr.setStallThreshold 0 2147483648).wf Cfg.reference = false := by decide
theorem test_wf_setStallFilter : (Instr.setStallFilter 256 true).wf Cfg.reference = false := by decide
theorem test_wf_setCoolStepConfig : (Instr.setCoolStepConfig 256 0).wf Cfg.reference = false := by decide
theorem test_wf_setCoolStepConfig_raw : (Instr.setCoolStepConfig 0 0x20000).wf Cfg.reference = false := by decide
theorem test_wf_setStallMinSps_driver : (Instr.setStallMinStepsPerSecond 256 0).wf Cfg.reference = false := by decide
theorem test_wf_setStallMinSps_rate : (Instr.setStallMinStepsPerSecond 0 4294967296).wf Cfg.reference = false := by decide
theorem test_wf_getMicrostepping : (Instr.getMicrostepping 256).wf Cfg.reference = false := by decide
theorem test_wf_getChopperConfig : (Instr.getChopperConfig 256).wf Cfg.reference = false := by decide
theorem test_wf_isEnabled : (Instr.isEnabled 256).wf Cfg.reference = false := by decide
theorem test_wf_readLiveStatus : (Instr.readLiveStatus 256).wf Cfg.reference = false := by decide
theorem test_wf_readAccumulatedStatus : (Instr.readAccumulatedStatus 256 0).wf Cfg.reference = false := by decide
theorem test_wf_readAccumulatedStatus_mask :
    (Instr.readAccumulatedStatus 0 0x100000).wf Cfg.reference = false := by decide
theorem test_wf_complete : (Instr.complete 0x100000 0).wf Cfg.reference = false := by decide
theorem test_wf_appendStatusReport : (Instr.appendStatusReport 256).wf Cfg.reference = false := by decide
theorem test_wf_appendStallConfig : (Instr.appendStallConfig 256).wf Cfg.reference = false := by decide

/-! ### The decoder: one word per operation, written out in 95_test_vectors.md -/

theorem test_decode_init : decode Cfg.reference 0x010000000000012C = .ok (.init 300) := by decide
theorem test_decode_spin : decode Cfg.reference 0x0200000000000001 = .ok (.spin true) := by decide
theorem test_decode_forceOff : decode Cfg.reference 0x0300000000000000 = .ok .forceOff := by decide
theorem test_decode_setMicrostepping : decode Cfg.reference 0x1001000000000108 = .ok (.setMicrostepping 1 8 true) := by decide
theorem test_decode_setCurrent : decode Cfg.reference 0x11010000000007D0 = .ok (.setCurrent 1 2000) := by decide
theorem test_decode_setChopperConfig : decode Cfg.reference 0x12050000000101B5 = .ok (.setChopperConfig 5 0x101B5) := by decide
theorem test_decode_enable : decode Cfg.reference 0x1309000000000001 = .ok (.enable 9 true) := by decide
theorem test_decode_setStallThreshold : decode Cfg.reference 0x14000000FFFFFFF6 = .ok (.setStallThreshold 0 (-10)) := by decide
theorem test_decode_setStallFilter : decode Cfg.reference 0x1502000000000001 = .ok (.setStallFilter 2 true) := by decide
theorem test_decode_setCoolStepConfig : decode Cfg.reference 0x160000000000A222 = .ok (.setCoolStepConfig 0 0x0A222) := by decide
theorem test_decode_setStallMinSps : decode Cfg.reference 0x1702000000000064 = .ok (.setStallMinStepsPerSecond 2 100) := by decide
theorem test_decode_getMicrostepping : decode Cfg.reference 0x2002000000000000 = .ok (.getMicrostepping 2) := by decide
theorem test_decode_getChopperConfig : decode Cfg.reference 0x2102000000000000 = .ok (.getChopperConfig 2) := by decide
theorem test_decode_isEnabled : decode Cfg.reference 0x2202000000000000 = .ok (.isEnabled 2) := by decide
theorem test_decode_readLiveStatus : decode Cfg.reference 0x2302000000000000 = .ok (.readLiveStatus 2) := by decide
theorem test_decode_readAccumulatedStatus :
    decode Cfg.reference 0x2400000000000080 = .ok (.readAccumulatedStatus 0 0x00080) := by decide
theorem test_decode_appendStatusReport : decode Cfg.reference 0x3002000000000000 = .ok (.appendStatusReport 2) := by decide
theorem test_decode_appendStallConfig : decode Cfg.reference 0x3101000000000000 = .ok (.appendStallConfig 1) := by decide
theorem test_decode_complete : decode Cfg.reference 0xC003200100001388 = .ok (.complete 0x32001 5000) := by decide

/-- V25: reserved opcodes, refused by name. -/
theorem test_decode_reserved :
    decode Cfg.reference 0x0000000000000000 = .error (.reservedOpcode 0x00) ∧ decode Cfg.reference 0x0400000000000000 = .error (.reservedOpcode 0x04)
      ∧ decode Cfg.reference 0x1800000000000001 = .error (.reservedOpcode 0x18)
      ∧ decode Cfg.reference 0xFF00000000000000 = .error (.reservedOpcode 0xFF) := by decide

/-- V25: reserved bits ignored. -/
theorem test_decode_reserved_bits :
    decode Cfg.reference 0x1300FFFF00000001 = .ok (.enable 0 true) ∧ decode Cfg.reference 0x02AB0000FFFFFFFF = .ok (.spin true)
      ∧ decode Cfg.reference 0x13000000FFFFFFFE = .ok (.enable 0 false) := by decide

/-- 30_encoding.md R84, R85: with `W = 24` the received word is [55:32] and the retain-mask [23:0]. -/
theorem test_decode_wide :
    decode { Cfg.reference with wordBits := 24 } 0xC0ABCDEF00000007 = .ok (.complete 0xABCDEF 7)
      ∧ decode { Cfg.reference with wordBits := 24 } 0x24000000FFABCDEF = .ok (.readAccumulatedStatus 0 0xABCDEF) := by
  decide

/-- The encoder writes the words of V12, V16 and P3. -/
theorem test_encode :
    encode (.setMicrostepping 0 5 true) = 0x1000000000000105 ∧ encode (.setStallThreshold 0 (-65)) = 0x14000000FFFFFFBF
      ∧ encode (.complete 0x25880 4687) = 0xC00258800000124F := by decide

/-- spec/opcode_table.json numbers the bits of the one word from bit 0. -/
theorem test_decodeTableWord :
    decodeTableWord 64 0x11010000000001F4 = some (.setCurrent 1 500) ∧ decodeTableWord 64 0x0400000000000000 = none := by
  decide

/-- The word placed by `withFetchWord` is the one the next step runs. -/
theorem test_withFetchWord :
    shows (fun t => (t.n, t.resp)) (step (State.reset.withFetchWord 64 0x0100000000000002)) = some (2, some ⟨true, 2⟩) := by
  decide

/-! ### One step per operation -/

/-- V21: `Init 11` is clamped to `MaxDrivers`. -/
theorem test_init_clamps :
    onWord State.reset 0x010000000000000B (fun t => (t.n, t.inited, t.resp)) = some (10, true, some ⟨true, 10⟩) := by decide

/-- P1: the record `Init` installs has the effective chopper value 0x901B0 and everything pending. -/
theorem test_init_record :
    onWord State.reset 0x0100000000000002
      (fun t => ((t.driver 1).reg, (t.driver 1).pend, (t.driver 1).maxIv.toNat, (t.driver 1).minLoad.toNat))
      = some (⟨0x00204, 0xC0100, 0x901B0, 0xE0050, 0xA0000⟩, 0b11111, 4687, 1023) := by decide

/-- P4: `Spin 1` in OFF-IDLE restarts at driver 0 with slot 0. -/
theorem test_spin_restarts :
    onWord stopped 0x0200000000000001
      (fun t => (t.cur, t.irqEn, (t.driver 0).pend, (t.driver 1).pend, t.trace))
      = some (some 0, true, 0b11110, 0b11111, [.tx 0 (.slot .driveControl) 0x00204]) := by decide

/-- P4: `Spin 1` while draining marks everything and starts nothing. -/
theorem test_spin_draining :
    onWord draining 0x0200000000000001 (fun t => (t.powered, t.cur, (t.driver 0).pend, t.trace))
      = some (true, some 0, 0b11111, []) := by decide

/-- P4: `ForceOff` clears `powered`, the transfer in flight goes on. -/
theorem test_forceOff :
    onWord s0 0x0300000000000000 (fun t => (t.powered, t.cur, t.irqEn)) = some (false, some 0, true) := by decide

/-- V12: `SetMicrostepping 0, 5, 1`. -/
theorem test_setMicrostepping :
    onWord s0 0x1000000000000105 (fun t => ((t.driver 0).reg.driveControl, (t.driver 0).mshift, (t.driver 0).pend))
      = some (0x00203, 5, 0b00001) := by decide

/-- V12: a shift of 9 fails and changes nothing. -/
theorem test_setMicrostepping_fails :
    onWord s0 (encode (.setMicrostepping 0 9 true)) (fun t => (t.drivers, t.resp)) = some (s0.drivers, some ⟨false, 0⟩) := by
  decide

/-- V13: 2375 mA is code 22. -/
theorem test_setCurrent :
    onWord s0 0x1100000000000947 (fun t => ((t.driver 0).reg.stallGuardConfig, (t.driver 0).pend))
      = some (0xC0116, 0b00010) := by decide

/-- V13: the largest operand is clamped to 2400 mA. -/
theorem test_setCurrent_clamps :
    onWord s0 0x11000000FFFFFFFF (fun t => (t.driver 0).reg.stallGuardConfig) = some 0xC0117 := by decide

/-- V14: operand bits above the payload ignored, tag forced, effective value with off-time 0. -/
theorem test_setChopperConfig :
    onWord s0 0x12000000FFFE0003 (fun t => ((t.driver 0).chopCfg, (t.driver 0).reg.chopperControl, (t.driver 0).pend))
      = some (0x80003, 0x80000, 0b00100) := by decide

/-- X2: off-time 1 with blanking-time 0 fails. -/
theorem test_setChopperConfig_fails :
    onWord s0 0x1200000000000001 (fun t => (t.drivers, t.resp)) = some (s0.drivers, some ⟨false, 0⟩) := by decide

/-- X3: `Enable 0, 1` makes the configured value effective. -/
theorem test_enable :
    onWord s0 0x1300000000000001 (fun t => ((t.driver 0).en, (t.driver 0).reg.chopperControl, (t.driver 0).pend))
      = some (true, 0x901B4, 0b00100) := by decide

/-- V9: the enable-time clear of the stall bit of both words. -/
theorem test_enable_clears_stall :
    onWord (s0.updateDriver 0 fun r => { r with live := 0x00001, acc := 0x37881 }) 0x1300000000000001
      (fun t => ((t.driver 0).live, (t.driver 0).acc)) = some (0x00000, 0x37880) := by decide

/-- V16: -10 is stored as 0x76. -/
theorem test_setStallThreshold :
    onWord s0 0x14000000FFFFFFF6 (fun t => ((t.driver 0).reg.stallGuardConfig, (t.driver 0).pend))
      = some (0xC7600, 0b00010) := by decide

/-- V16: the least 32-bit operand is clamped to -64. -/
theorem test_setStallThreshold_clamps :
    onWord s0 0x1400000080000000 (fun t => (t.driver 0).reg.stallGuardConfig) = some 0xC4000 := by decide

/-- V17: `SetStallFilter 0, 1`. -/
theorem test_setStallFilter :
    onWord s0 0x1500000000000001 (fun t => ((t.driver 0).reg.stallGuardConfig, (t.driver 0).pend))
      = some (0xD0100, 0b00010) := by decide

/-- V18: high operand bits ignored, tag forced. -/
theorem test_setCoolStepConfig :
    onWord s0 0x16000000FFFFFFFF (fun t => ((t.driver 0).reg.smartEnable, (t.driver 0).pend)) = some (0xBFFFF, 0b10000) := by
  decide

/-- V19: 7 steps per second are 133928 ticks, and no slot is pending. -/
theorem test_setStallMinSps :
    onWord s0 0x1700000000000007 (fun t => ((t.driver 0).maxIv.toNat, (t.driver 0).pend)) = some (133928, 0) := by decide

/-- V19: a rate of 0 is taken as 1. -/
theorem test_setStallMinSps_zero :
    onWord s0 0x1700000000000000 (fun t => (t.driver 0).maxIv.toNat) = some 937500 := by decide

/-- V20: the getters. -/
theorem test_getMicrostepping : onWord s0 0x2000000000000000 (·.resp) = some (some ⟨true, 0x104⟩) := by decide
theorem test_getChopperConfig : onWord s0 0x2100000000000000 (·.resp) = some (some ⟨true, 0x901B4⟩) := by decide
theorem test_isEnabled : onWord s0 0x2200000000000000 (·.resp) = some (some ⟨true, 0⟩) := by decide

/-- V9: the stall bit of a disabled driver is suppressed at the read. -/
theorem test_readLiveStatus :
    onWord (s0.updateDriver 0 fun r => { r with live := 0x32001 }) 0x2300000000000000 (fun t => (t.resp, (t.driver 0).live))
      = some (some ⟨true, 0x32000⟩, 0x32001) := by decide

/-- V11: an index out of range. -/
theorem test_readLiveStatus_fails : onWord s0 0x2302000000000000 (·.resp) = some (some ⟨false, 0⟩) := by decide

/-- X5: the bits not in the retain-mask are cleared. -/
theorem test_readAccumulatedStatus :
    onWord (s0.updateDriver 0 fun r => { r with acc := 0x37881 }) 0x2400000000000080
      (fun t => (t.resp, (t.driver 0).acc)) = some (some ⟨true, 0x37881⟩, 0x00080) := by decide

/-- V8: the report of the window (100, 800), which is then empty. -/
theorem test_appendStatusReport :
    onWord (s0.updateDriver 0 fun r => { r with live := 0x7D000, minLoad := 100, maxLoad := 800 }) 0x3000000000000000
      (fun t => (t.resp, (t.driver 0).minLoad.toNat, (t.driver 0).maxLoad.toNat))
      = some (some ⟨true, 0x1C80647D000⟩, 1023, 0) := by decide

/-- V8: the report of the empty window. -/
theorem test_appendStatusReport_empty : onWord s0 0x3000000000000000 (·.resp) = some (some ⟨true, 0x3FF00000⟩) := by decide

/-- V10. -/
theorem test_appendStallConfig :
    onWord (s0.updateDriver 1 fun r =>
        { r with reg := ⟨0x00204, 0xD7600, 0x901B0, 0xE0050, 0xAA222⟩, maxIv := 9375 }) 0x3101000000000000 (·.resp)
      = some (some ⟨true, 0x0000249F00A222F6⟩) := by decide

/-- P3: a reading at `iv = max_iv` passes the gate and moves the chain on. -/
theorem test_complete :
    onWord s0 0xC00258800000124F
      (fun t => (t.cur, (t.driver 0).acc, (t.driver 0).minLoad.toNat, (t.driver 0).maxLoad.toNat, t.trace))
      = some (some 1, 0x25880, 150, 150, [.rx 0 0x25880 4687, .tx 1 .poll 0xA0000]) := by decide

/-- V4: an unpowered completion halts the chain and discards the word. -/
theorem test_complete_halts :
    onWord draining 0xC00FFFFF00000064 (fun t => (t.cur, t.irqEn, (t.driver 0).live, t.trace))
      = some (none, false, 0, [.halt 0]) := by decide

/-- 70_reset_and_hazards.md R220: the reset input with a transfer in flight. -/
theorem test_resetInput :
    shows (fun t => (t.n, t.inited, t.powered, t.cur, t.irqEn)) (step { s0 with inputs := [.resetInput] })
      = some (0, false, false, none, false) := by decide

/-! ### The assembly syntax (30_encoding.md R89), words of P1, P2 and V16 -/

theorem test_assembly_number : Assembly.number ['-', '0', 'x', '1', 'F'] = some (-31)
    ∧ Assembly.number ['0', 'b', '1', '0', '1'] = some 5 ∧ Assembly.number ['2', '0', '0', '0'] = some 2000
    ∧ Assembly.number ['1', 'A'] = none := by decide
theorem test_assembly_operation : Assembly.operation Cfg.reference "SetCurrent" [1, 500] = some [0x11010000000001F4]
    ∧ Assembly.operation Cfg.reference "SetStallThreshold" [0, -65] = some [0x14000000FFFFFFBF] := by decide
theorem test_assembly_pseudo : Assembly.operation Cfg.reference "PowerOn" [] = some [0x0200000000000001]
    ∧ Assembly.operation Cfg.reference "PeekAccumulated" [0] = some [0x24000000000FFFFF]
    ∧ Assembly.operation Cfg.reference "POLL" [2] = some [0xC000000000000000, 0xC000000000000000] := by decide

theorem test_assembly_line :
    Assembly.line Cfg.reference ['E', 'n', 'a', 'b', 'l', 'e', ' ', '9', ',', ' ', '1', ' ', ';', 'x'] = some [0x1309000000000001] := by
  decide

/-! ### A state with the invariants -/

theorem driver0_inv : Driver.Inv Cfg.reference driver0 where
  tags := fun sl => by cases sl <;> decide
  chopCfg_tag := by decide
  chopCfg_valid := by decide
  chopper_enabled := by decide
  chopper_disabled := by decide
  mshift_le := by decide
  mres := by decide
  intpol := by decide
  window := by decide
  live_fits := by decide
  acc_fits := by decide
  minLoad_lt := by decide
  maxLoad_lt := by decide

/-- S0 with some slots of driver 1 pending. -/
def pending1 (p : Pending) : State :=
  { s0 with drivers := driver0 :: { driver0 with pend := p } :: List.replicate 8 Driver.blank }

theorem pending1_inv (p : Pending) : (pending1 p).Inv where
  cfg_valid := reference_valid
  records := rfl
  n_le := by show 2 ≤ 10; decide
  n_zero := nofun
  cur_lt := fun d h => by cases h; exact Nat.zero_lt_two
  cur_inited := fun _ => ⟨Nat.zero_lt_two, rfl⟩
  irq_iff := ⟨fun _ => nofun, fun _ => rfl⟩
  running := fun _ _ _ => nofun
  drivers := fun d h => by
    match d, h with
    | 0, _ => exact driver0_inv
    | 1, _ => exact driver0_inv.withPend p

theorem s0_inv : s0.Inv := pending1_inv 0

theorem draining_inv : draining.Inv where
  cfg_valid := reference_valid
  records := rfl
  n_le := s0_inv.n_le
  n_zero := s0_inv.n_zero
  cur_lt := s0_inv.cur_lt
  cur_inited := s0_inv.cur_inited
  irq_iff := s0_inv.irq_iff
  running := nofun
  drivers := s0_inv.drivers

theorem stopped_inv : stopped.Inv where
  cfg_valid := reference_valid
  records := rfl
  n_le := s0_inv.n_le
  n_zero := s0_inv.n_zero
  cur_lt := nofun
  cur_inited := fun h => absurd rfl h
  irq_iff := ⟨nofun, fun h => absurd rfl h⟩
  running := nofun
  drivers := s0_inv.drivers

/-- The driver of S0 enabled, with a window of readings. -/
def driverOn : Driver :=
  { driver0 with
    en := true, reg := ⟨0x00204, 0xC0100, 0x901B4, 0xE0050, 0xA0000⟩, live := 0x32001, acc := 0x32001, minLoad := 200
    maxLoad := 200 }

/-- S0 with driver 1 enabled. -/
def enabled1 : State := { s0 with drivers := driver0 :: driverOn :: List.replicate 8 Driver.blank }

theorem enabled1_inv : enabled1.Inv where
  cfg_valid := reference_valid
  records := rfl
  n_le := s0_inv.n_le
  n_zero := s0_inv.n_zero
  cur_lt := s0_inv.cur_lt
  cur_inited := s0_inv.cur_inited
  irq_iff := s0_inv.irq_iff
  running := s0_inv.running
  drivers := fun d h => by
    match d, h with
    | 0, _ => exact driver0_inv
    | 1, _ =>
      exact
        { tags := fun sl => by cases sl <;> decide
          chopCfg_tag := by decide
          chopCfg_valid := by decide
          chopper_enabled := by decide
          chopper_disabled := by decide
          mshift_le := by decide
          mres := by decide
          intpol := by decide
          window := by decide
          live_fits := by decide
          acc_fits := by decide
          minLoad_lt := by decide
          maxLoad_lt := by decide }

/-! ### For every statement with hypotheses, a case that meets them -/

theorem witness_DecodeEncodeRoundTrip : (Instr.setMicrostepping 255 255 true).wf Cfg.reference = true
    ∧ (Instr.setStallThreshold 255 (-2147483648)).wf Cfg.reference = true ∧ (Instr.setStallThreshold 0 2147483647).wf Cfg.reference = true
    ∧ (Instr.init 4294967295).wf Cfg.reference = true := by decide

theorem witness_DecodedOperandsInRange : decode Cfg.reference 0x11FF0000FFFFFFFF = .ok (.setCurrent 255 4294967295) := by decide

/-- For each clause a pair of words that differ in ignored bits, in the order of the clauses. -/
theorem witness_ReservedBitsIgnored :
    (opcodeField 0x01AB123400000002 = 0x01 ∧ operandField 0x01AB123400000002 = operandField 0x0100000000000002)
    ∧ (opcodeField 0x02ABFFFFFFFFFFFF = 0x02
      ∧ (0x02ABFFFFFFFFFFFF : StimulusWord).getLsbD 0 = (0x0200000000000001 : StimulusWord).getLsbD 0)
    ∧ opcodeField 0x03FFFFFFFFFFFFFF = 0x03
    ∧ (drvField 0x1001000000000108 = drvField 0x1001FFFFFFFFFF08
      ∧ ∀ b, b ≤ 8 → (0x1001000000000108 : StimulusWord).getLsbD b = (0x1001FFFFFFFFFF08 : StimulusWord).getLsbD b)
    ∧ operandField 0x11010000000007D0 = operandField 0x1101FFFF000007D0
    ∧ (∀ b, b ≤ 16 → (0x12000000FFFE0003 : StimulusWord).getLsbD b = (0x1200000000000003 : StimulusWord).getLsbD b)
    ∧ (∀ b, b ≤ 16 → (0x16000000FFFFFFFF : StimulusWord).getLsbD b = (0x160000000001FFFF : StimulusWord).getLsbD b)
    ∧ (0x13000000FFFFFFFE : StimulusWord).getLsbD 0 = (0x1300000000000000 : StimulusWord).getLsbD 0
    ∧ drvField 0x2002FFFFFFFFFFFF = drvField 0x2002000000000000
    ∧ (∀ b, b < 20 → (0x24000000FFF00080 : StimulusWord).getLsbD b = (0x2400000000000080 : StimulusWord).getLsbD b)
    ∧ (∀ b, b < 52 → (0xC0F258800000124F : StimulusWord).getLsbD b = (0xC00258800000124F : StimulusWord).getLsbD b) := by
  decide

theorem witness_StepRunsDecodedOperation :
    (given s0 0x1300000000000001).inputs = [.word 0x1300000000000001]
    ∧ decode Cfg.reference 0x1300000000000001 = .ok (.enable 0 true) := by decide

/-- A word of V25. -/
theorem witness_ReservedOpcodeFails :
    (given s0 0x1800000000000001).inputs = [.word 0x1800000000000001]
    ∧ opcodeField 0x1800000000000001 ∉ ([0x01, 0x02, 0x03, 0x10, 0x11, 0x12, 0x13, 0x14, 0x15, 0x16, 0x17, 0x20, 0x21,
      0x22, 0x23, 0x24, 0x30, 0x31, 0xC0] : List (BitVec 8)) := ⟨rfl, by decide⟩

theorem witness_StrobeIsForceOff : State.inputs { s0 with inputs := [.forceOffStrobe] } = [.forceOffStrobe] := rfl

theorem witness_ResetInputResets : State.inputs { s0 with inputs := [.resetInput] } = [.resetInput] := rfl

theorem witness_OnlyInitBringsDriversIntoRange :
    (Instr.setCurrent 0 500).driverIndex = some 0
    ∧ shows (·.n) (exec (.init 2) (State.powerOn Cfg.reference)) = some 2 := by decide

theorem witness_InvariantsHoldAtReset : Cfg.reference.Valid := reference_valid

theorem witness_EveryStepKeepsTheInvariants :
    (given s0 0xC00258800000124F).Inv ∧ ∃ t, step (given s0 0xC00258800000124F) = .next t :=
  ⟨s0_inv.withInputs _, _, rfl⟩

/-- The first driver out of range, at a step that writes records, and at the first `Init`. -/
theorem witness_RecordsOutOfRangeNeverWritten :
    (given s0 0xC00258800000124F).Inv ∧ (given s0 0xC00258800000124F).NoResetToCome
    ∧ onWord s0 0xC00258800000124F (fun t => decide (t.n ≤ 2)) = some true
    ∧ onWord State.reset 0x0100000000000002 (fun t => decide (t.n ≤ 2)) = some true :=
  ⟨s0_inv.withInputs _, by decide, by decide, by decide⟩

theorem witness_DriverCountWrittenByFirstInitOnly :
    (given State.reset 0x0100000000000002).NoResetToCome
    ∧ onWord State.reset 0x0100000000000002 (fun t => decide (t.n ≠ State.reset.n)) = some true
    ∧ onWord State.reset 0x0100000000000000 (fun t => decide (t.n = State.reset.n ∧ t.inited ≠ State.reset.inited))
      = some true := by decide

theorem witness_IndexOutOfRangeFails :
    (Instr.setMicrostepping 2 9 true).driverIndex = some 2 ∧ s0.n ≤ 2
    ∧ (Instr.appendStatusReport 255).driverIndex = some 255 ∧ s0.n ≤ 255 := by decide

/-- An operation of each cause F1 to F5, and one that succeeds. -/
theorem witness_FailExactlyOnTheListedCauses :
    failCause (.isEnabled 2) s0 = some .indexOutOfRange
    ∧ failCause (.setMicrostepping 0 9 true) s0 = some .shiftOutOfRange
    ∧ failCause (.setChopperConfig 0 0x101B0) s0 = some .offTimeZero
    ∧ failCause (.setChopperConfig 0 0x00001) s0 = some .offTimeOneBlankingZero
    ∧ failCause (.init 1) s0 = some .alreadyInitialised
    ∧ failCause (.setChopperConfig 0 0x00002) s0 = none
    ∧ shows (·.resp) (exec (.setChopperConfig 0 0x00002) s0) = some (some ⟨true, 0⟩) := by decide

/-- Each clause at its boundary: shifts 9 and 8; off-time 0; off-time 1 with blanking-time 0 and 1; off-time 2 with
blanking-time 0. -/
theorem witness_ValidationFailuresAreExactlyThree :
    1 < s0.n ∧ 8 < 9 ∧ 8 ≤ 8
    ∧ s0.cfg.slotLayout.toff.get (s0.cfg.slotWord .chopperControl 0x101B0) = 0
    ∧ s0.cfg.slotLayout.toff.get (s0.cfg.slotWord .chopperControl 0x00001) = 1
    ∧ s0.cfg.slotLayout.tbl.get (s0.cfg.slotWord .chopperControl 0x00001) = 0
    ∧ s0.cfg.slotLayout.toff.get (s0.cfg.slotWord .chopperControl 0x08001) = 1
    ∧ s0.cfg.slotLayout.tbl.get (s0.cfg.slotWord .chopperControl 0x08001) ≠ 0
    ∧ s0.cfg.slotLayout.toff.get (s0.cfg.slotWord .chopperControl 0x00002) = 2
    ∧ s0.cfg.slotLayout.tbl.get (s0.cfg.slotWord .chopperControl 0x00002) = 0 := by decide

theorem witness_InitInstallsTheDefaults :
    State.reset.cfg.Valid ∧ State.reset.drivers.length = State.reset.cfg.maxDrivers ∧ State.reset.inited = false :=
  ⟨reference_valid, by decide, rfl⟩

theorem witness_SecondInitRefused : s0.inited = true := rfl

theorem witness_SpinRestartsTheIdleChain :
    stopped.Shaped ∧ stopped.powered = false ∧ stopped.cur = none ∧ 0 < stopped.n ∧ 1 < stopped.n := by decide

/-- Both cases: a transfer in flight, and no driver. -/
theorem witness_SpinWhileDrainingStartsNothing :
    (draining.Shaped ∧ draining.powered = false ∧ draining.cur ≠ none)
    ∧ (State.reset.Shaped ∧ State.reset.powered = false ∧ State.reset.n = 0) := by decide

theorem witness_SpinOffAndIdempotentSpin : s0.powered = true := rfl

/-- The three power states, with an operation that moves each and one that does not. -/
theorem witness_PowerStateMachine :
    (stopped.Inv ∧ stopped.powerState = .offIdle ∧ (∃ t, exec (.spin true) stopped = .next t)
      ∧ ∃ t, exec .forceOff stopped = .next t)
    ∧ (s0.Inv ∧ s0.powerState = .onRunning ∧ (∃ t, exec (.spin false) s0 = .next t) ∧ (∃ t, exec .forceOff s0 = .next t)
      ∧ ∃ t, exec (.complete 0 0) s0 = .next t)
    ∧ (draining.Inv ∧ draining.powerState = .offDraining ∧ (∃ t, exec (.spin true) draining = .next t)
      ∧ (∃ t, exec (.complete 0 0) draining = .next t) ∧ ∃ t, exec (.isEnabled 0) draining = .next t) :=
  ⟨⟨stopped_inv, rfl, ⟨_, rfl⟩, _, rfl⟩, ⟨s0_inv, rfl, ⟨_, rfl⟩, ⟨_, rfl⟩, _, rfl⟩,
    draining_inv, rfl, ⟨_, rfl⟩, ⟨_, rfl⟩, _, rfl⟩

theorem witness_SetMicrosteppingResult : s0.cfg.Valid ∧ s0.Shaped ∧ 1 < s0.n ∧ 8 ≤ 8 :=
  ⟨reference_valid, by decide, by decide, by decide⟩
theorem witness_SetCurrentResult : s0.cfg.Valid ∧ s0.Shaped ∧ 1 < s0.n := ⟨reference_valid, by decide, by decide⟩
theorem witness_SetStallThresholdResult : s0.cfg.Valid ∧ s0.Shaped ∧ 1 < s0.n := witness_SetCurrentResult
theorem witness_SetStallFilterResult : s0.cfg.Valid ∧ s0.Shaped ∧ 1 < s0.n := witness_SetCurrentResult
theorem witness_SetCoolStepConfigResult : s0.cfg.Valid ∧ s0.Shaped ∧ 1 < s0.n := witness_SetCurrentResult
theorem witness_SetStallMinStepsPerSecondResult : s0.cfg.Valid ∧ s0.Shaped ∧ 1 < s0.n := witness_SetCurrentResult
theorem witness_GettersReturnAndWriteNothing : 1 < s0.n := by decide

/-- S0 with driver 0 enabled. -/
def enabled0 : State := s0.updateDriver 0 fun r => { r with en := true, live := 0x00001, acc := 0x00001 }

/-- A valid chopper value, for a disabled and for an enabled driver; off-time 1 is the boundary. -/
theorem witness_SetChopperConfigResult :
    s0.cfg.Valid ∧ s0.Shaped ∧ 0 < s0.n
    ∧ s0.cfg.tag.chopperControl ||| ((0x08001 : Word) &&& s0.cfg.payloadMask.chopperControl) = 0x88001
    ∧ s0.cfg.slotLayout.toff.get 0x88001 ≠ 0
    ∧ ¬ (s0.cfg.slotLayout.toff.get 0x88001 = 1 ∧ s0.cfg.slotLayout.tbl.get 0x88001 = 0)
    ∧ (s0.driver 0).en = false ∧ enabled0.Shaped ∧ 0 < enabled0.n ∧ (enabled0.driver 0).en = true :=
  ⟨reference_valid, by decide, by decide, by decide, by decide, by decide, rfl, by decide, by decide, rfl⟩

theorem witness_EnableTransitionResult :
    (s0.cfg.Valid ∧ s0.Shaped ∧ 0 < s0.n ∧ (s0.driver 0).en = false)
    ∧ (enabled0.cfg.Valid ∧ enabled0.Shaped ∧ 0 < enabled0.n ∧ (enabled0.driver 0).en = true) :=
  ⟨⟨reference_valid, by decide, by decide, rfl⟩, reference_valid, by decide, by decide, rfl⟩

theorem witness_EnableToTheStateHeldIsNoOp : 1 < s0.n ∧ 0 < enabled0.n := by decide

/-- X6 and V6: the gate at 0, 1, `max_iv`, `max_iv + 1` and with `max_iv = 0`. -/
theorem witness_NoiseGateJudgesTheInterval :
    stallGate 0 4687 = false ∧ stallGate 1 4687 = true ∧ stallGate 4687 4687 = true ∧ stallGate 4688 4687 = false
    ∧ stallGate 0xFFFFFFFF 4687 = false ∧ stallGate 0 0 = false := by decide

theorem witness_ReadLiveStatusSuppressesTheStallBit :
    s0.cfg.Valid ∧ 0 < s0.n ∧ (s0.driver 0).en = false ∧ enabled0.cfg.Valid ∧ 0 < enabled0.n
    ∧ (enabled0.driver 0).en = true :=
  ⟨reference_valid, by decide, rfl, reference_valid, by decide, rfl⟩

theorem witness_ReadAccumulatedStatusRetainsTheMask : enabled0.Shaped ∧ 0 < enabled0.n := by decide

theorem witness_AppendStatusReportResult :
    s0.Inv ∧ 0 < s0.n ∧ (s0.driver 0).en = false ∧ enabled1.Inv ∧ 1 < enabled1.n ∧ (enabled1.driver 1).en = true :=
  ⟨s0_inv, by decide, rfl, enabled1_inv, by decide, rfl⟩

theorem witness_AppendStallConfigResult : s0.cfg.Valid ∧ 1 < s0.n := ⟨reference_valid, by decide⟩

theorem witness_LiveContainedInAccumulated :
    s0.cfg.Valid ∧ s0.Shaped ∧ s0.powered = true ∧ s0.cur = some 0 ∧ 0 < s0.n
    ∧ shows (fun t => s0.cfg.statusLayout.sg.get (t.driver 0).live) (exec (.complete 0x00001 4687) s0) = some 1 :=
  ⟨reference_valid, by decide, rfl, rfl, by decide, by decide⟩

theorem witness_AccumulatedBitsAreSticky :
    shows (·.n) (exec (.enable 0 false) enabled0) = some 2 ∧ (enabled0.driver 0).acc.getLsbD 0 = true
    ∧ (∀ count, Instr.enable 0 false ≠ .init count) ∧ (∀ mask, Instr.enable 0 false ≠ .readAccumulatedStatus 0 mask)
    ∧ Instr.enable 0 false ≠ .enable 0 true :=
  ⟨by decide, by decide, nofun, nofun, by decide⟩

/-- Powered with equal and with different load readings, and unpowered. -/
theorem witness_ChipFaultsChangeOnlyTheStatus :
    s0.cur = some 0 ∧ (∃ t, exec (.complete 0x32001 100) s0 = .next t) ∧ (∃ u, exec (.complete 0x320FF 100) s0 = .next u)
    ∧ s0.cfg.statusLayout.load.get 0x32001 = s0.cfg.statusLayout.load.get 0x320FF
    ∧ s0.cfg.statusLayout.load.get 0x32001 ≠ s0.cfg.statusLayout.load.get 0x25880
    ∧ draining.cur = some 0 ∧ ∃ u, exec (.complete 0x320FF 100) draining = .next u :=
  ⟨rfl, ⟨_, rfl⟩, ⟨_, rfl⟩, by decide, by decide, rfl, _, rfl⟩

theorem witness_SelectorIsFixedPriority :
    (0b10110 : Pending) ≠ 0 ∧ ((pending1 0b10110).driver 1).pend = 0b10110 ∧ 1 < (pending1 0b10110).drivers.length := by
  decide

/-- The gate passes at `iv = max_iv` and fails at `max_iv + 1` and at 0; the next driver has a slot pending, or nothing. -/
theorem witness_CompleteAccumulatesAndAdvances :
    s0.cfg.Valid ∧ (pending1 0b10110).Shaped ∧ (pending1 0b10110).cur = some 0 ∧ 0 < (pending1 0b10110).n
    ∧ (pending1 0b10110).irqEn = true ∧ (pending1 0b10110).powered = true ∧ s0.Shaped ∧ s0.cur = some 0
    ∧ ((4687 : BitVec 32).toNat ≠ 0 ∧ (4687 : BitVec 32).toNat ≤ (s0.driver 0).maxIv.toNat)
    ∧ ¬ ((4688 : BitVec 32).toNat ≠ 0 ∧ (4688 : BitVec 32).toNat ≤ (s0.driver 0).maxIv.toNat) :=
  ⟨reference_valid, by decide, rfl, by decide, rfl, rfl, by decide, rfl, by decide, by decide⟩

theorem witness_CompleteUnpoweredHalts : draining.cur = some 0 ∧ draining.irqEn = true ∧ draining.powered = false :=
  ⟨rfl, rfl, rfl⟩

/-- V5: no transfer in flight; and a state where the event is enabled. -/
theorem witness_CompleteHasNoStepUnlessEnabled :
    State.reset.cur = none ∧ State.reset.irqEn = false ∧ s0.completeEnabled = true ∧ draining.completeEnabled = true := by
  decide

/-- The three ways. -/
theorem witness_CurChangesInThreeWays :
    (s0.Inv ∧ shows (·.cur) (exec (.complete 0 0) s0) = some (some 1))
    ∧ (draining.Inv ∧ shows (·.cur) (exec (.complete 0 0) draining) = some none)
    ∧ (stopped.Inv ∧ shows (·.cur) (exec (.spin true) stopped) = some (some 0)) :=
  ⟨⟨s0_inv, by decide⟩, ⟨draining_inv, by decide⟩, stopped_inv, by decide⟩

theorem witness_PendingClearedOnlyByTransmission :
    (given (pending1 0b10110) 0xC000000000000000).Inv ∧ (given (pending1 0b10110) 0xC000000000000000).NoResetToCome
    ∧ 1 < s0.n
    ∧ Pending.isMarked ((pending1 0b10110).driver 1).pend .stallGuardConfig = true
    ∧ onWord (pending1 0b10110) 0xC000000000000000 (fun t => Pending.isMarked (t.driver 1).pend .stallGuardConfig)
      = some false :=
  ⟨(pending1_inv _).withInputs _, by decide, by decide, by decide, by decide⟩

/-- A slot sent, a poll, and the chopper word of a disabled driver. -/
theorem witness_EveryWordSentCarriesItsTag :
    (given (pending1 0b00100) 0xC000000000000000).Inv ∧ (given s0 0xC000000000000000).Inv
    ∧ onWord (pending1 0b00100) 0xC000000000000000
        (fun t => ((pending1 0b00100).traceSince t, (t.driver 1).en))
      = some ([.rx 0 0 0, .tx 1 (.slot .chopperControl) 0x901B0], false)
    ∧ onWord s0 0xC000000000000000 (fun t => s0.traceSince t) = some [.rx 0 0 0, .tx 1 .poll 0xA0000] :=
  ⟨(pending1_inv _).withInputs _, s0_inv.withInputs _, by decide, by decide⟩

theorem witness_SecondSetCurrentSupersedesTheFirst :
    shows (fun t => (t.driver 1).reg.stallGuardConfig) (exec (.setCurrent 1 500) s0) = some 0xC0104 := by decide

/-- P2: `SetCurrent 1, 500` and `SetCurrent 1, 1200`, then the COMPLETE that starts driver 1. -/
def coalescing : State := { s0 with inputs := [.word 0x11010000000001F4, .word 0x11010000000004B0] }

theorem witness_NextStartSendsTheLastValue :
    coalescing.Inv ∧ coalescing.NoResetToCome ∧ coalescing.powered = true ∧ coalescing.cur = some 0
    ∧ ∃ t u, Host.Core.run Sys2Proof.core 2 coalescing = .next t ∧ t.trace = coalescing.trace ∧ t.powered = true
      ∧ exec (.complete 0 0) t = .next u ∧ Pending.isMarked (t.driver 1).pend .stallGuardConfig = true
      ∧ Pending.isMarked (t.driver 1).pend .driveControl = false :=
  ⟨s0_inv.withInputs _, by decide, rfl, rfl, _, _, rfl, rfl, rfl, rfl, by decide, by decide⟩

/-- V1: two COMPLETEs, the slots 1, 2 and 4 of driver 1 pending. -/
def polling : State :=
  { pending1 0b10110 with inputs := completions [(0, 0), (0, 0)] }

theorem polling_inv : polling.Inv := (pending1_inv _).withInputs _

/-- Two completions are a full turn of two drivers; no entry of the trace is a halt. -/
theorem witness_ServiceOrderIsRoundRobin :
    polling.Inv ∧ polling.NoResetToCome ∧ polling.cur = some 0
    ∧ ∃ t, Host.Core.run Sys2Proof.core 2 polling = .next t ∧ polling.NoHaltSince t
      ∧ 0 + polling.n ≤ (startTargets (polling.traceSince t)).length ∧ 1 < polling.n :=
  ⟨polling_inv, by decide, rfl, _, rfl, by unfold State.NoHaltSince; decide, by decide, by decide⟩

theorem witness_PoweredChainNeverStops :
    polling.Inv ∧ polling.powered = true ∧ polling.cur = some 0
    ∧ polling.inputs = completions [(0, 0), (0, 0)] ++ [] :=
  ⟨polling_inv, rfl, rfl, rfl⟩

/-- Slot 1 of driver 1 is the first of its pending slots, so its bound is `1 * N = 2` transfers. -/
theorem witness_PendingSlotSentWithinItsBound :
    polling.Inv ∧ polling.powered = true ∧ polling.cur = some 0 ∧ 1 < polling.n
    ∧ Pending.isMarked (polling.driver 1).pend .stallGuardConfig = true
    ∧ polling.inputs = completions [(0, 0), (0, 0)] ++ []
    ∧ [((0 : Word), (0 : BitVec 32)), (0, 0)].length = pendingUpTo (polling.driver 1).pend .stallGuardConfig * polling.n :=
  ⟨polling_inv, rfl, rfl, by decide, by decide, rfl, by decide⟩

/-- Slot 1 of driver 1 has its turn at the first START of driver 1; the only slot below it is never marked. -/
theorem witness_PendingSlotSentByItsTurn :
    polling.Inv ∧ polling.NoResetToCome ∧ polling.cur ≠ none ∧ 1 < polling.n ∧ Pending.isMarked (polling.driver 1).pend .stallGuardConfig = true
    ∧ ∃ a t, Host.Core.run Sys2Proof.core 1 polling = .next a ∧ Host.Core.run Sys2Proof.core 2 polling = .next t
      ∧ polling.NoHaltSince t ∧ Pending.isMarked (a.driver 1).pend .driveControl = false
      ∧ Pending.isMarked (t.driver 1).pend .driveControl = false
      ∧ pendingUpTo (polling.driver 1).pend .stallGuardConfig ≤ (startTargets (polling.traceSince t)).count 1 :=
  ⟨polling_inv, by decide, nofun, by decide, by decide, _, _, rfl, rfl, by unfold State.NoHaltSince; decide, by decide, by decide,
    by decide⟩

theorem witness_AtMostOneSelectAsserted :
    s0.Inv ∧ 0 < s0.n ∧ 1 < s0.n ∧ s0.selectLine (s0.cfg.select 0) = true ∧ s0.selectLine (s0.cfg.select 1) = false :=
  ⟨s0_inv, by decide, by decide, by decide, by decide⟩

end Sys2Proof.Tests
end

section
/-! The step of a word that decodes (00_scope.md R8). -/

namespace Sys2Proof.Machine

/-- The dispatch of R80: a word's operation is the one the decoder reads in the state's own configuration. -/
theorem processStimulus_word_of_decode {s : State} {w : StimulusWord} {i : Instr} (h : decode s.cfg w = .ok i) :
    processStimulus (.word w) s = exec i s := by
  simp only [processStimulus, h]

/-- Settles O5: the step takes the word, which leaves the configuration the decoder uses as it was, and dispatches it. -/
theorem stepRunsDecodedOperation : Obligations.StepRunsDecodedOperation := by
  intro s w rest i hinputs hdecode
  calc step s = processStimulus (.word w) { s with inputs := rest } := step_of_cons hinputs
    _ = exec i { s with inputs := rest } := processStimulus_word_of_decode hdecode

end Sys2Proof.Machine
end

section
/-! What a decoded COMPLETE carries, and the invariants of one driver's record (10_state.md R22, R25, R26, R28, R29) under
every change a command or a completion makes to a record. -/

namespace Sys2Proof

/-! ### The decoder -/

/-- An operation a word decodes to is what some row of the opcode map reads from the word (30_encoding.md R83). -/
theorem exists_row_of_decode {c : Cfg} {w : StimulusWord} {i : Instr} (h : decode c w = .ok i) :
    ∃ r ∈ opcodeMap c, r.operands w = i := by
  unfold decode at h
  split at h
  · next r hr =>
    cases h
    exact ⟨r, List.mem_of_find?_eq_some hr, rfl⟩
  · cases h

/-- Only the last row of the opcode map reads a COMPLETE, and it reads the received word from `rxField`
(30_encoding.md R83, R84). -/
theorem rxField_of_row_complete {c : Cfg} {w : StimulusWord} {rx : Word} {iv : BitVec 32} :
    ∀ r ∈ opcodeMap c, r.operands w = .complete rx iv → rxField c w = rx := by
  simp +contextual [opcodeMap]

/-- A received word that comes from the decoder has `W` bits (30_encoding.md R84). -/
theorem fitsWord_of_decode_complete {c : Cfg} {w : StimulusWord} {rx : Word} {iv : BitVec 32}
    (h : decode c w = .ok (.complete rx iv)) : c.FitsWord rx := by
  obtain ⟨r, hr, he⟩ := exists_row_of_decode h
  rw [← rxField_of_row_complete r hr he]
  exact and_outside _ _

/-! ### Words and masks -/

/-- Two words with no bit outside a mask have none together. -/
theorem or_outside {v w m : Word} (hv : v &&& ~~~m = 0) (hw : w &&& ~~~m = 0) : (v ||| w) &&& ~~~m = 0 := by
  rw [BitVec.and_or_distrib_right, hv, hw]
  exact BitVec.or_zero

/-- Clearing bits brings no bit outside a mask. -/
theorem retain_outside {v m : Word} (k : Word) (hv : v &&& ~~~m = 0) : (v &&& k) &&& ~~~m = 0 := by
  rw [BitVec.and_assoc, BitVec.and_comm k, ← BitVec.and_assoc, hv]
  exact BitVec.zero_and

namespace Cfg.Valid

variable {c : Cfg}

/-- The tag of a slot has no bit in the slot's payload, so it is left whole outside the payload (00_scope.md R5). -/
theorem tag_and_not_payload (h : c.Valid) (s : Slot) : c.tag.get s &&& ~~~c.payloadMask.get s = c.tag.get s := by
  have hd := h.tag_payload s
  refine BitVec.eq_of_getLsbD_eq fun i hi => ?_
  have hb : (c.tag.get s &&& c.payloadMask.get s).getLsbD i = false := by rw [hd]; simp
  rw [BitVec.getLsbD_and] at hb
  rw [BitVec.getLsbD_and, BitVec.getLsbD_not]
  cases ht : (c.tag.get s).getLsbD i <;> simp_all

/-- A word made of a raw operand carries its slot's tag, whatever the operand (30_encoding.md R85, 10_state.md R22). -/
theorem slotWord_tag (h : c.Valid) (s : Slot) (raw : Word) :
    c.slotWord s raw &&& ~~~c.payloadMask.get s = c.tag.get s := by
  rw [Cfg.slotWord, BitVec.and_or_distrib_right, h.tag_and_not_payload, and_outside]
  exact BitVec.or_zero

/-- Taking the off-time out of a chopper word leaves its tag (10_state.md R25). -/
theorem effectiveChop_tag (h : c.Valid) (en : Bool) (x : Word) :
    c.effectiveChop en x &&& ~~~c.payloadMask.chopperControl = x &&& ~~~c.payloadMask.chopperControl := by
  cases en with
  | true => rfl
  | false => exact h.slotLayout.toff_inside.set_tag x 0

/-- The stall bit is one of the `W` bits of a status word. -/
theorem sg_inside (h : c.Valid) : c.statusLayout.sg.Inside c.wordMask :=
  h.statusLayout.inside _ (by simp [StatusLayout.fields])

/-- Clearing the stall bit leaves a word of `W` bits. -/
theorem clearStall_fits (h : c.Valid) {w : Word} (hw : c.FitsWord w) : c.FitsWord (c.clearStall w) :=
  (h.sg_inside.set_tag w 0).trans hw

/-- The filtered word has `W` bits when the received one has (41_status_accumulator.md R132). -/
theorem filterStatus_fits (h : c.Valid) (passes : Bool) {rx : Word} (hrx : c.FitsWord rx) :
    c.FitsWord (c.filterStatus passes rx) := by
  cases passes with
  | true => exact hrx
  | false => exact h.clearStall_fits hrx

/-- A load reading has `LoadBits` bits (30_encoding.md R96). -/
theorem loadOf_lt (h : c.Valid) (rx : Word) : (c.loadOf rx).toNat < 2 ^ c.loadBits := by
  have hin : c.statusLayout.load.Inside c.wordMask := h.statusLayout.inside _ (by simp [StatusLayout.fields])
  have hlt := Field.get_lt c.statusLayout.load rx hin.fits
  rw [h.statusLayout.load_width] at hlt
  rw [Cfg.loadOf, BitVec.toNat_ofNat]
  exact (Nat.mod_le _ _).trans_lt hlt

/-- A microstep code fits its field, so the field holds it whole (00_scope.md R5). -/
theorem mresCode_mod (h : c.Valid) {shift : Nat} (hs : shift ≤ maxShift) :
    c.mresCode shift % 2 ^ c.slotLayout.mres.width = c.mresCode shift := by
  have hl : shift < c.mresCodes.length := by rw [h.mresCodes_length]; omega
  refine Nat.mod_eq_of_lt (h.mresCodes_fit _ ?_)
  rw [Cfg.mresCode, List.getD_eq_getElem _ _ hl]
  exact List.getElem_mem hl

end Cfg.Valid

/-- The lower end of the empty window has `LoadBits` bits (10_state.md R29). -/
theorem Cfg.emptyMinLoad_lt (c : Cfg) : c.emptyMinLoad.toNat < 2 ^ c.loadBits := by
  have hpos : 0 < 2 ^ c.loadBits := Nat.two_pow_pos _
  rw [Cfg.emptyMinLoad, BitVec.toNat_ofNat]
  exact (Nat.mod_le _ _).trans_lt (by omega)

theorem lowerLoad_le_reading (m l : Load) : lowerLoad m l ≤ l := by
  unfold lowerLoad
  split
  · exact BitVec.le_refl l
  · next h => exact BitVec.not_lt.1 h

theorem lowerLoad_le_bound (m l : Load) : lowerLoad m l ≤ m := by
  unfold lowerLoad
  split
  · next h => exact BitVec.le_of_lt h
  · exact BitVec.le_refl m

theorem reading_le_upperLoad (m l : Load) : l ≤ upperLoad m l := by
  unfold upperLoad
  split
  · exact BitVec.le_refl l
  · next h => exact BitVec.not_lt.1 h

/-- A valid microstep shift is held whole in the 4 bits of `mshift` (10_state.md R26). -/
theorem toNat_ofNat_shift {shift : Nat} (hs : shift ≤ maxShift) : (BitVec.ofNat 4 shift).toNat = shift := by
  unfold maxShift at hs
  rw [BitVec.toNat_ofNat]
  omega

end Sys2Proof

namespace Sys2Proof.Machine

/-! ### The slots of a record -/

/-- The slots keep their tags when one is written with a word that carries its own (10_state.md R22). -/
theorem tags_set {c : Cfg} {reg : Slots Word} {w : Word} (h : ∀ u, reg.get u &&& ~~~c.payloadMask.get u = c.tag.get u)
    (sl : Slot) (hw : w &&& ~~~c.payloadMask.get sl = c.tag.get sl) (u : Slot) :
    (reg.set sl w).get u &&& ~~~c.payloadMask.get u = c.tag.get u := by
  by_cases hu : u = sl
  · rw [hu, Slots.get_set_same, hw]
  · rw [Slots.get_set_other _ _ hu, h u]

namespace Driver.Inv

variable {c : Cfg} {r : Driver}

/-- One field of slot 1 written (42_config_operations.md R152, R155, R156). -/
theorem writeStallGuard (h : Driver.Inv c r) {f : Field} (hf : f.Inside c.payloadMask.stallGuardConfig) (v : Nat) :
    Driver.Inv c (r.writeStallGuard f v) :=
  { h with tags := tags_set h.tags .stallGuardConfig ((hf.set_tag _ v).trans (h.tags .stallGuardConfig)) }

/-- The raw passthrough of slot 4 (42_config_operations.md R157). -/
theorem writeSmartEnable (h : Driver.Inv c r) (hv : c.Valid) (raw : Word) :
    Driver.Inv c (r.writeSlot .smartEnable (c.slotWord .smartEnable raw)) :=
  { h with tags := tags_set h.tags .smartEnable (hv.slotWord_tag .smartEnable raw) }

/-- Slot 0 and its mirrors: the two fields are disjoint, so the second write leaves the microstep code of the first
(42_config_operations.md R151). -/
theorem setMicrostepping (h : Driver.Inv c r) (hv : c.Valid) {shift : Nat} (hs : shift ≤ maxShift) (interp : Bool) :
    Driver.Inv c (r.setMicrostepping c shift interp) := by
  have hl := hv.slotLayout
  refine { h with tags := tags_set h.tags .driveControl ?_, mshift_le := ?_, mres := ?_, intpol := ?_ }
  · rw [Slots.get_driveControl, hl.intpol_inside.set_tag, hl.mres_inside.set_tag]
    exact h.tags .driveControl
  · rw [Driver.setMicrostepping_mshift, toNat_ofNat_shift hs]
    exact hs
  · rw [Driver.setMicrostepping_reg, Driver.setMicrostepping_mshift, toNat_ofNat_shift hs, Slots.set_driveControl,
      Field.get_set_disjoint _ _ hl.mres_intpol, Field.get_set_same _ _ _ hl.mres_inside.fits, hv.mresCode_mod hs]
  · rw [Driver.setMicrostepping_reg, Driver.setMicrostepping_interp, Slots.set_driveControl,
      Field.get_set_same _ _ _ hl.intpol_inside.fits, hl.intpol_width]
    cases interp <;> rfl

/-- Slot 2 regenerated after its configured value, the enable flag and the status words were replaced
(10_state.md R25, 42_config_operations.md R153, R154). -/
theorem regenerateChopper (h : Driver.Inv c r) (hv : c.Valid) {x live acc : Word} (en : Bool)
    (htag : x &&& ~~~c.payloadMask.chopperControl = c.tag.chopperControl) (hx : c.chopValid x = true)
    (hlive : c.FitsWord live) (hacc : c.FitsWord acc) :
    Driver.Inv c (Driver.regenerateChopper c { r with chopCfg := x, en := en, live := live, acc := acc }) :=
  { h with
    tags := tags_set h.tags .chopperControl ((hv.effectiveChop_tag en x).trans htag)
    chopCfg_tag := htag
    chopCfg_valid := hx
    chopper_enabled := fun he => by cases he; rfl
    chopper_disabled := fun he => by cases he; rfl
    live_fits := hlive
    acc_fits := hacc }

/-- `SetChopperConfig` (42_config_operations.md R153). -/
theorem setChopper (h : Driver.Inv c r) (hv : c.Valid) (raw : Word)
    (hx : c.chopValid (c.slotWord .chopperControl raw) = true) :
    Driver.Inv c (r.setChopper c (c.slotWord .chopperControl raw)) :=
  h.regenerateChopper hv r.en (hv.slotWord_tag .chopperControl raw) hx h.live_fits h.acc_fits

/-- `Enable`, a real transition (42_config_operations.md R154). -/
theorem setEnable (h : Driver.Inv c r) (hv : c.Valid) (on : Bool) : Driver.Inv c (r.setEnable c on) := by
  have hfits : ∀ w : Word, c.FitsWord w → c.FitsWord (if on then c.clearStall w else w) := fun w hw => by
    cases on with
    | true => exact hv.clearStall_fits hw
    | false => exact hw
  exact h.regenerateChopper hv on h.chopCfg_tag h.chopCfg_valid (hfits _ h.live_fits) (hfits _ h.acc_fits)

/-- `SetStallMinStepsPerSecond` writes a field that no invariant reads (42_config_operations.md R158). -/
theorem withMaxIv (h : Driver.Inv c r) (m : BitVec 32) : Driver.Inv c { r with maxIv := m } :=
  { h with }

/-- `ReadAccumulatedStatus` only clears bits (41_status_accumulator.md R134). -/
theorem retainAcc (h : Driver.Inv c r) (mask : Word) : Driver.Inv c { r with acc := r.acc &&& mask } :=
  { h with acc_fits := retain_outside mask h.acc_fits }

/-- `AppendStatusReport` reopens the window (41_status_accumulator.md R136). -/
theorem emptyWindow (h : Driver.Inv c r) : Driver.Inv c (r.emptyWindow c) :=
  { h with
    window := .inr ⟨rfl, rfl⟩
    minLoad_lt := c.emptyMinLoad_lt
    maxLoad_lt := Nat.two_pow_pos _ }

/-- ACCUMULATE: a reading that passes the gate lies between the two new bounds, so the window is not crossed even when it
was empty before (41_status_accumulator.md R132). -/
theorem accumulate (h : Driver.Inv c r) (hv : c.Valid) {rx : Word} (hrx : c.FitsWord rx) (iv : BitVec 32) :
    Driver.Inv c (r.accumulate c rx iv) := by
  have hw := hv.filterStatus_fits (stallGate iv r.maxIv) hrx
  have hl := hv.loadOf_lt rx
  refine { h with live_fits := hw, acc_fits := or_outside h.acc_fits hw, window := ?_, minLoad_lt := ?_, maxLoad_lt := ?_ }
  · rw [Driver.accumulate_minLoad, Driver.accumulate_maxLoad]
    split
    · exact .inl (BitVec.le_trans (lowerLoad_le_reading _ _) (reading_le_upperLoad _ _))
    · exact h.window
  · rw [Driver.accumulate_minLoad]
    split
    · exact (BitVec.le_def.1 (lowerLoad_le_bound _ _)).trans_lt h.minLoad_lt
    · exact h.minLoad_lt
  · rw [Driver.accumulate_maxLoad]
    unfold upperLoad
    split_ifs
    · exact hl
    · exact h.maxLoad_lt
    · exact h.maxLoad_lt

end Driver.Inv

/-- The record `Init` installs: the defaults of a configuration of this hardware carry their tags, a valid chopper value and
the mirrors of slot 0 (43_power_control.md R180, 00_scope.md R5). -/
theorem initialDriver_inv {c : Cfg} (hv : c.Valid) : Driver.Inv c (initialDriver c) where
  tags := tags_set hv.defaults_tag .chopperControl
    ((hv.effectiveChop_tag false _).trans (hv.defaults_tag .chopperControl))
  chopCfg_tag := hv.defaults_tag .chopperControl
  chopCfg_valid := hv.defaults_chopper
  chopper_enabled := nofun
  chopper_disabled := fun _ => rfl
  mshift_le := (toNat_ofNat_shift hv.defaultShift_le).trans_le hv.defaultShift_le
  mres := by
    have hshift : (initialDriver c).mshift.toNat = c.defaultShift := toNat_ofNat_shift hv.defaultShift_le
    rw [hshift]
    exact hv.defaults_mres
  intpol := hv.defaults_intpol
  window := .inr ⟨rfl, rfl⟩
  live_fits := BitVec.zero_and
  acc_fits := BitVec.zero_and
  minLoad_lt := c.emptyMinLoad_lt
  maxLoad_lt := Nat.two_pow_pos _

end Sys2Proof.Machine
end

section
/-! What one operation can do to the state, said once for all 19; the invariants are derived from it. -/

namespace Sys2Proof.Machine

/-- What the writes of the setters have in common: they leave the bitmap alone, and in a configuration of this hardware they
keep the invariants of the record. -/
structure Driver.KeptBy (c : Cfg) (f : Driver → Driver) : Prop where
  pend : ∀ r, (f r).pend = r.pend
  inv : c.Valid → ∀ r, Driver.Inv c r → Driver.Inv c (f r)

/-! ### Power restored -/

/-- The state a restored power leaves when it starts no transfer, `irqEn` being the completion-interrupt enable: every driver
in range is to be sent whole (43_power_control.md R181). -/
def State.resynced (s : State) (irqEn : Bool) : State :=
  { s.updateFirst s.n Driver.resync with powered := true, irqEn := irqEn }

@[simp] theorem State.resynced_cfg (s : State) (b : Bool) : (s.resynced b).cfg = s.cfg := rfl
@[simp] theorem State.resynced_n (s : State) (b : Bool) : (s.resynced b).n = s.n := rfl
@[simp] theorem State.resynced_inited (s : State) (b : Bool) : (s.resynced b).inited = s.inited := rfl
@[simp] theorem State.resynced_cur (s : State) (b : Bool) : (s.resynced b).cur = s.cur := rfl
@[simp] theorem State.resynced_irqEn (s : State) (b : Bool) : (s.resynced b).irqEn = b := rfl
@[simp] theorem State.resynced_powered (s : State) (b : Bool) : (s.resynced b).powered = true := rfl
@[simp] theorem State.resynced_inputs (s : State) (b : Bool) : (s.resynced b).inputs = s.inputs := rfl
@[simp] theorem State.resynced_resp (s : State) (b : Bool) : (s.resynced b).resp = s.resp := rfl
@[simp] theorem State.resynced_ports (s : State) (b : Bool) : (s.resynced b).ports = s.ports := rfl
@[simp] theorem State.resynced_trace (s : State) (b : Bool) : (s.resynced b).trace = s.trace := rfl

@[simp] theorem State.length_resynced (s : State) (b : Bool) : (s.resynced b).drivers.length = s.drivers.length :=
  s.length_updateFirst s.n Driver.resync

theorem State.driver_resynced {s : State} (h : s.Shaped) (b : Bool) (e : Nat) :
    (s.resynced b).driver e = if e < s.n then (s.driver e).resync else s.driver e :=
  s.driver_updateFirst s.n e Driver.resync h

/-- The two things a restored power can do (43_power_control.md R181). -/
theorem State.powerRestored_eq (s : State) :
    (0 < s.n ∧ s.powerRestored = startTransfer 0 (s.resynced true))
      ∨ ((s.cur ≠ none ∨ s.n = 0) ∧ s.powerRestored = s.resynced s.irqEn) := by
  rcases s.powerRestored_cases with ⟨-, hn, he⟩ | ⟨hc, he⟩
  · exact .inl ⟨hn, he⟩
  · exact .inr ⟨hc, he⟩

/-! ### The effect of an operation -/

/-- The nine shapes of the effect of operation `i` from `s` when it answers `next`. -/
inductive ExecEffect (i : Instr) (s : State) : State → Prop where
  /-- a response only: a `fail`, a read, a command that finds nothing to do -/
  | answered (ok : Bool) (v : BitVec 64) : ExecEffect i s (s.respond ok v)
  /-- a slot of a driver in range configured (42_config_operations.md R159) -/
  | configured (d : Nat) (sl : Slot) (f : Driver → Driver) (hd : d < s.n) (hf : Driver.KeptBy s.cfg f) :
      ExecEffect i s (s.configureSlot d sl f)
  /-- a driver in range, another field of its record written -/
  | recorded (d : Nat) (f : Driver → Driver) (v : BitVec 64) (hd : d < s.n) (hf : Driver.KeptBy s.cfg f) :
      ExecEffect i s ((s.updateDriver d f).respond true v)
  /-- the first `Init` (43_power_control.md R180) -/
  | initialised (count : Nat) (hi : i = .init count) (hfirst : s.inited = false) : ExecEffect i s (s.initialise count)
  /-- `ForceOff`, `Spin 0` (43_power_control.md R181, R182) -/
  | powerLost : ExecEffect i s (s.powerLost.respond true 0)
  /-- `Spin 1` with no chain to start (43_power_control.md R181) -/
  | resynced (hc : s.cur ≠ none ∨ s.n = 0) :
      ExecEffect i s ((s.resynced s.irqEn).respond true 0)
  /-- `Spin 1` that starts the idle chain (43_power_control.md R181) -/
  | started (hn : 0 < s.n) : ExecEffect i s ((startTransfer 0 (s.resynced true)).respond true 0)
  /-- a powered COMPLETE (40_transfer_scheduler.md R113) -/
  | advanced (d : Nat) (rx : Word) (iv : BitVec 32) (hi : i = .complete rx iv) (hc : s.cur = some d)
      (hirq : s.irqEn = true) : ExecEffect i s (advanceChain d rx iv (s.busEnd d)).noResponse
  /-- an unpowered COMPLETE (40_transfer_scheduler.md R113) -/
  | halted (d : Nat) (hp : s.powered = false) : ExecEffect i s (haltChain d (s.busEnd d)).noResponse

/-- The effect of an indexed command is that of its body, or a `fail`. -/
theorem ExecEffect.of_indexed {i : Instr} {d : Nat} {k : State → State} {s t : State}
    (heq : exec i s = indexed d s k) (he : exec i s = .next t) (hk : d < s.n → ExecEffect i s (k s)) :
    ExecEffect i s t := by
  rcases indexed_cases (heq.symm.trans he) with ⟨hd, rfl⟩ | ⟨-, rfl⟩
  · exact hk hd
  · exact .answered false 0

/-- Everything an operation can do. -/
theorem exec_effect {i : Instr} {s t : State} (he : exec i s = .next t) : ExecEffect i s t := by
  cases i with
  | init count =>
    rw [exec, execInit] at he
    split at he
    · cases he
      exact .answered false 0
    · next hi =>
      cases he
      exact .initialised count rfl (Bool.eq_false_of_not_eq_true hi)
  | spin p =>
    rcases execSpin_cases he with ⟨-, -, rfl⟩ | ⟨-, -, rfl⟩ | ⟨-, rfl⟩
    · rcases s.powerRestored_eq with ⟨hn, hr⟩ | ⟨hc, hr⟩ <;> rw [hr]
      · exact .started hn
      · exact .resynced hc
    · exact .powerLost
    · exact .answered true 0
  | forceOff =>
    cases he
    exact .powerLost
  | complete rx iv =>
    obtain ⟨d, hc, hirq, ⟨-, rfl⟩ | ⟨hp, rfl⟩⟩ := execComplete_cases he
    · exact .advanced d rx iv rfl hc hirq
    · exact .halted d hp
  | setMicrostepping d shift interp =>
    refine .of_indexed (exec_setMicrostepping ..) he fun hd => ?_
    split
    · exact .answered false 0
    · next hs =>
      have hle : shift ≤ maxShift := Nat.not_lt.1 hs
      exact .configured d _ _ hd ⟨fun _ => rfl, fun hv _ hr => hr.setMicrostepping hv hle interp⟩
  | setCurrent d current =>
    exact .of_indexed (exec_setCurrent ..) he fun hd =>
      .configured d _ _ hd ⟨fun _ => rfl, fun hv _ hr => hr.writeStallGuard hv.slotLayout.cs_inside _⟩
  | setChopperConfig d raw =>
    refine .of_indexed (exec_setChopperConfig ..) he fun hd => ?_
    split
    · next hx => exact .configured d _ _ hd ⟨fun _ => rfl, fun hv _ hr => hr.setChopper hv raw hx⟩
    · exact .answered false 0
  | enable d on =>
    refine .of_indexed (exec_enable ..) he fun hd => ?_
    split
    · exact .answered true 0
    · exact .configured d _ _ hd ⟨fun _ => rfl, fun hv _ hr => hr.setEnable hv on⟩
  | setStallThreshold d v =>
    exact .of_indexed (exec_setStallThreshold ..) he fun hd =>
      .configured d _ _ hd ⟨fun _ => rfl, fun hv _ hr => hr.writeStallGuard hv.slotLayout.sgt_inside _⟩
  | setStallFilter d on =>
    exact .of_indexed (exec_setStallFilter ..) he fun hd =>
      .configured d _ _ hd ⟨fun _ => rfl, fun hv _ hr => hr.writeStallGuard hv.slotLayout.sfilt_inside _⟩
  | setCoolStepConfig d raw =>
    exact .of_indexed (exec_setCoolStepConfig ..) he fun hd =>
      .configured d _ _ hd ⟨fun _ => rfl, fun hv _ hr => hr.writeSmartEnable hv raw⟩
  | setStallMinStepsPerSecond d rate =>
    exact .of_indexed (exec_setStallMinStepsPerSecond ..) he fun hd =>
      .recorded d _ _ hd ⟨fun _ => rfl, fun _ _ hr => hr.withMaxIv _⟩
  | readAccumulatedStatus d mask =>
    exact .of_indexed (exec_readAccumulatedStatus ..) he fun hd =>
      .recorded d _ _ hd ⟨fun _ => rfl, fun _ _ hr => hr.retainAcc mask⟩
  | appendStatusReport d =>
    exact .of_indexed (exec_appendStatusReport ..) he fun hd =>
      .recorded d _ _ hd ⟨fun _ => rfl, fun _ _ hr => hr.emptyWindow⟩
  | getMicrostepping d => exact .of_indexed (exec_getMicrostepping ..) he fun _ => .answered true _
  | getChopperConfig d => exact .of_indexed (exec_getChopperConfig ..) he fun _ => .answered true _
  | isEnabled d => exact .of_indexed (exec_isEnabled ..) he fun _ => .answered true _
  | readLiveStatus d => exact .of_indexed (exec_readLiveStatus ..) he fun _ => .answered true _
  | appendStallConfig d => exact .of_indexed (exec_appendStallConfig ..) he fun _ => .answered true _

end Sys2Proof.Machine
end

section
/-! The invariants of 10_state.md R36 hold after reset and under every step. -/

namespace Sys2Proof.Machine

/-! ### The part of the invariants that does not look at the transfer in flight -/

/-- The invariants of the configuration, the driver count and the records: those that hold in the middle of a command too,
while the chain is being started (10_state.md R20, R31, R36 items 4, 5 and 7). -/
structure State.BankInv (s : State) : Prop where
  cfg_valid : s.cfg.Valid
  records : s.drivers.length = s.cfg.maxDrivers
  n_le : s.n ≤ s.cfg.maxDrivers
  n_zero : s.inited = false → s.n = 0
  drivers : ∀ d, d < s.n → (s.driver d).Inv s.cfg

theorem State.Inv.bank {s : State} (h : s.Inv) : s.BankInv :=
  ⟨h.cfg_valid, h.records, h.n_le, h.n_zero, h.drivers⟩

theorem State.BankInv.inited_of_pos {s : State} (h : s.BankInv) (hn : 0 < s.n) : s.inited = true := by
  by_contra hi
  exact hn.ne' (h.n_zero (Bool.eq_false_of_not_eq_true hi))

/-- The invariants from those of the records and what the transfer in flight has to meet beside (10_state.md R36 items 1
to 3). -/
theorem State.BankInv.inv {s : State} (h : s.BankInv) (hcur : ∀ d, s.cur = some d → d < s.n)
    (hirq : s.irqEn = true ↔ s.cur ≠ none) (hrun : s.powered = true → 0 < s.n → s.cur ≠ none) : s.Inv where
  cfg_valid := h.cfg_valid
  records := h.records
  n_le := h.n_le
  n_zero := h.n_zero
  cur_lt := hcur
  cur_inited := fun hne => by
    obtain ⟨d, hd⟩ := Option.ne_none_iff_exists'.1 hne
    have hn : 0 < s.n := (Nat.zero_le d).trans_lt (hcur d hd)
    exact ⟨hn, h.inited_of_pos hn⟩
  irq_iff := hirq
  running := fun hp _ hn => hrun hp hn
  drivers := h.drivers

namespace State.BankInv

variable {s : State}

/-- `BankInv` looks at four fields. -/
theorem congr {t : State} (h : s.BankInv) (hcfg : t.cfg = s.cfg) (hn : t.n = s.n) (hi : t.inited = s.inited)
    (hd : t.drivers = s.drivers) : t.BankInv where
  cfg_valid := hcfg ▸ h.cfg_valid
  records := by rw [hd, hcfg]; exact h.records
  n_le := by rw [hn, hcfg]; exact h.n_le
  n_zero := by rw [hn, hi]; exact h.n_zero
  drivers := fun d hlt => by
    rw [State.driver_congr hd, hcfg]
    exact h.drivers d (hn ▸ hlt)

theorem shaped (h : s.BankInv) : s.Shaped :=
  h.n_le.trans h.records.ge

/-- One record replaced. -/
theorem updateDriver (h : s.BankInv) (d : Nat) {f : Driver → Driver}
    (hf : d < s.n → Driver.Inv s.cfg (f (s.driver d))) : (s.updateDriver d f).BankInv where
  cfg_valid := h.cfg_valid
  records := (s.length_updateDriver d f).trans h.records
  n_le := h.n_le
  n_zero := h.n_zero
  drivers := fun e he => by
    rw [State.driver_updateDriver]
    split
    · next hed => exact hf (hed.1 ▸ he)
    · exact h.drivers e he

/-- A restored power writes bitmaps and nothing else of the records (43_power_control.md R181). -/
theorem resynced (h : s.BankInv) (b : Bool) : (s.resynced b).BankInv where
  cfg_valid := h.cfg_valid
  records := (s.length_resynced b).trans h.records
  n_le := h.n_le
  n_zero := h.n_zero
  drivers := fun d (hd : d < s.n) => by
    rw [State.driver_resynced h.shaped, if_pos hd]
    exact (h.drivers d hd).withPend _

/-- START writes one bitmap and nothing else of the records (40_transfer_scheduler.md R111). -/
theorem startTransfer (h : s.BankInv) (d : Nat) : (startTransfer d s).BankInv := by
  have hb : (s.updateDriver d fun _ => (s.driver d).nextTransfer.2.2).BankInv := by
    refine h.updateDriver d fun hd => ?_
    rw [Driver.nextTransfer_record]
    exact (h.drivers d hd).withPend _
  exact hb.congr rfl rfl rfl rfl

/-- The state START leaves has the invariants, once the completion interrupt is enabled (40_transfer_scheduler.md R111,
43_power_control.md R181). -/
theorem startTransfer_inv (h : s.BankInv) {d : Nat} (hd : d < s.n) (hirq : s.irqEn = true) :
    (Machine.startTransfer d s).Inv :=
  (h.startTransfer d).inv (fun e he => by cases he; exact hd) ⟨fun _ => nofun, fun _ => hirq⟩ (fun _ _ => nofun)

end State.BankInv

/-! ### The operations -/

namespace State.Inv

variable {s : State}

/-- The invariants look at no input and at no output. -/
theorem withBoundary (h : s.Inv) (inputs : List Stimulus) (resp : Option Response) (trace : List BusEvent)
    (ports : List PortAction) :
    State.Inv { s with inputs := inputs, resp := resp, trace := trace, ports := ports } :=
  ⟨h.cfg_valid, h.records, h.n_le, h.n_zero, h.cur_lt, h.cur_inited, h.irq_iff, h.running, h.drivers⟩

theorem respond (h : s.Inv) (ok : Bool) (v : BitVec 64) : (s.respond ok v).Inv := h.withBoundary _ _ _ _
theorem fail (h : s.Inv) : s.fail.Inv := h.respond false 0
theorem noResponse (h : s.Inv) : s.noResponse.Inv := h.withBoundary _ _ _ _
theorem busEnd (h : s.Inv) (d : Nat) : (s.busEnd d).Inv := h.withBoundary _ _ _ _

/-- One record replaced by one that meets the invariants. -/
theorem updateDriver (h : s.Inv) (d : Nat) {f : Driver → Driver}
    (hf : d < s.n → Driver.Inv s.cfg (f (s.driver d))) : (s.updateDriver d f).Inv :=
  (h.bank.updateDriver d hf).inv h.cur_lt h.irq_iff fun hp hn => h.running hp (h.bank.inited_of_pos hn) hn

/-- The first `Init` (43_power_control.md R180). -/
theorem initialise (h : s.Inv) (count : Nat) : (s.initialise count).Inv := by
  have hle : min count s.cfg.maxDrivers ≤ s.drivers.length := (Nat.min_le_right _ _).trans h.records.ge
  have hb : (s.initialise count).BankInv :=
    { cfg_valid := h.cfg_valid
      records := (s.length_updateFirst _ _).trans h.records
      n_le := Nat.min_le_right _ _
      n_zero := nofun
      drivers := fun d (hd : d < min count s.cfg.maxDrivers) => by
        rw [State.driver_initialise, State.driver_updateFirst _ _ _ _ hle, if_pos hd]
        exact initialDriver_inv h.cfg_valid }
  exact hb.inv nofun ⟨nofun, fun hne => absurd rfl hne⟩ nofun

/-- Power lost: the flag only (43_power_control.md R182). -/
theorem powerLost (h : s.Inv) : s.powerLost.Inv :=
  (h.bank.congr (t := s.powerLost) rfl rfl rfl rfl).inv h.cur_lt h.irq_iff nofun

/-- ACCUMULATE (41_status_accumulator.md R132). -/
theorem accumulate (h : s.Inv) (d : Nat) {rx : Word} (hrx : s.cfg.FitsWord rx) (iv : BitVec 32) :
    (Machine.accumulate d rx iv s).Inv :=
  State.Inv.withBoundary
    (h.updateDriver d (f := Driver.accumulate s.cfg rx iv) fun hd => (h.drivers d hd).accumulate h.cfg_valid hrx iv) _ _ _ _

/-- The next driver in the round is in range (40_transfer_scheduler.md R113). -/
theorem next_lt (h : s.Inv) {d : Nat} (hc : s.cur = some d) : (d + 1) % s.n < s.n :=
  Nat.mod_lt _ ((Nat.zero_le d).trans_lt (h.cur_lt d hc))

/-- The powered branch of the completion handler (40_transfer_scheduler.md R113). -/
theorem advanceChain (h : s.Inv) {d : Nat} {rx : Word} (hc : s.cur = some d) (hirq : s.irqEn = true)
    (hrx : s.cfg.FitsWord rx) (iv : BitVec 32) : (Machine.advanceChain d rx iv s).Inv :=
  (h.accumulate d hrx iv).bank.startTransfer_inv (h.next_lt hc) hirq

/-- The unpowered branch: the chain stops and no power flag asks for it (40_transfer_scheduler.md R113). -/
theorem haltChain (h : s.Inv) (d : Nat) (hp : s.powered = false) : (Machine.haltChain d s).Inv :=
  (h.bank.congr (t := Machine.haltChain d s) rfl rfl rfl rfl).inv nofun ⟨nofun, fun hne => absurd rfl hne⟩
    fun hp' => absurd (hp.symm.trans hp') nofun

end State.Inv

/-- Every effect of an operation keeps the invariants, if the word a COMPLETE receives has `W` bits. -/
theorem ExecEffect.inv {i : Instr} {s t : State} (he : ExecEffect i s t) (h : s.Inv)
    (hrx : ∀ rx iv, i = .complete rx iv → s.cfg.FitsWord rx) : t.Inv := by
  cases he with
  | answered ok v => exact h.respond ok v
  | configured d sl f hd hf =>
    exact (h.updateDriver d fun _ => (hf.inv h.cfg_valid _ (h.drivers d hd)).withPend _).respond _ _
  | recorded d f v hd hf => exact (h.updateDriver d fun _ => hf.inv h.cfg_valid _ (h.drivers d hd)).respond _ _
  | initialised count hi hfirst => exact h.initialise count
  | powerLost => exact h.powerLost.respond _ _
  | resynced hc =>
    have hrun : 0 < s.n → s.cur ≠ none := fun hn => hc.resolve_right hn.ne'
    exact ((h.bank.resynced s.irqEn).inv h.cur_lt h.irq_iff fun _ => hrun).respond _ _
  | started hn => exact ((h.bank.resynced true).startTransfer_inv hn rfl).respond _ _
  | advanced d rx iv hi hc hirq => exact ((h.busEnd d).advanceChain hc hirq (hrx rx iv hi) iv).noResponse
  | halted d hp => exact ((h.busEnd d).haltChain d hp).noResponse

/-- A COMPLETE a stimulus issues received a word of `W` bits: it came through the decoder (30_encoding.md R84). -/
theorem Stimulus.Issues.fitsWord {c : Cfg} {i : Stimulus} {rx : Word} {iv : BitVec 32}
    (h : i.Issues c (.complete rx iv)) : c.FitsWord rx := by
  rcases h with ⟨-, he⟩ | ⟨w, -, hd⟩
  · cases he
  · exact fitsWord_of_decode_complete hd

/-- Power-on reset brings no driver into range and starts nothing (10_state.md R37). -/
theorem powerOn_inv {c : Cfg} (hv : c.Valid) : (State.powerOn c).Inv where
  cfg_valid := hv
  records := List.length_replicate
  n_le := Nat.zero_le _
  n_zero := fun _ => rfl
  cur_lt := nofun
  cur_inited := fun hne => absurd rfl hne
  irq_iff := ⟨nofun, fun hne => absurd rfl hne⟩
  running := nofun
  drivers := nofun

theorem State.Inv.resetByInput {s : State} (h : s.Inv) : s.resetByInput.Inv :=
  (powerOn_inv h.cfg_valid).withBoundary _ _ _ _

/-- Settles O12: a step does nothing, answers `fail`, runs one operation on the state with the stimulus taken, or resets, and
each of these keeps the invariants. -/
theorem everyStepKeepsTheInvariants : Obligations.EveryStepKeepsTheInvariants := by
  intro s t hinv hstep
  rcases step_cases hstep with ⟨-, rfl⟩ | ⟨i, rest, -, rfl | ⟨instr, hiss, he⟩ | ⟨-, rfl⟩⟩
  · exact hinv.noResponse
  · exact (hinv.withInputs rest).fail
  · exact (exec_effect he).inv (hinv.withInputs rest) fun rx iv hi => (hi ▸ hiss).fitsWord
  · exact (hinv.withInputs rest).resetByInput

/-- Settles O11: the reference configuration is one of this hardware. -/
theorem invariantsHoldAtReset : Obligations.InvariantsHoldAtReset :=
  ⟨fun _ hv => powerOn_inv hv, powerOn_inv Tests.reference_valid⟩

/-- Settles O9: each clause reads one field of the power-on state. -/
theorem resetLeavesNothingRunning : Obligations.ResetLeavesNothingRunning :=
  fun _ => ⟨rfl, rfl, rfl, rfl, rfl, rfl, rfl, rfl, fun _ => rfl⟩

end Sys2Proof.Machine
end

section
/-! What steps do not write: the configuration, the driver count after the first `Init`, and the records of drivers out of
range (10_state.md R31, R36 item 6, R38). -/

namespace Sys2Proof.Machine

/-- No operation writes the configuration. -/
theorem ExecEffect.cfg_eq {i : Instr} {s t : State} (he : ExecEffect i s t) : t.cfg = s.cfg := by
  cases he <;> simp

/-- `N` and `inited` are written by the first `Init` only (43_power_control.md R180). -/
theorem ExecEffect.count_cases {i : Instr} {s t : State} (he : ExecEffect i s t) :
    (t.n = s.n ∧ t.inited = s.inited) ∨ ∃ count, i = .init count ∧ s.inited = false ∧ t = s.initialise count := by
  cases he with
  | initialised count hi hfirst => exact .inr ⟨count, hi, hfirst, rfl⟩
  | _ => left; simp

/-- An `Init` comes from a word: the strobe is `ForceOff`. -/
theorem Stimulus.Issues.init_word {c : Cfg} {i : Stimulus} {count : Nat} (h : i.Issues c (.init count)) :
    ∃ w, i = .word w ∧ decode c w = .ok (.init count) :=
  h.resolve_left fun hs => nomatch hs.2

/-- No step writes the configuration, not even the reset input (10_state.md R38). -/
theorem step_cfg {s t : State} (h : step s = .next t) : t.cfg = s.cfg := by
  rcases step_cases h with ⟨-, rfl⟩ | ⟨i, rest, -, rfl | ⟨instr, -, he⟩ | ⟨-, rfl⟩⟩
  · rfl
  · rfl
  · exact (exec_effect he).cfg_eq
  · rfl

/-- Settles O14: of all the effects of a step without reset, only that of the first `Init` has another `N` or `inited`. -/
theorem driverCountWrittenByFirstInitOnly : Obligations.DriverCountWrittenByFirstInitOnly := by
  intro s t hstep
  refine ⟨step_cfg hstep, fun hreset hchanged => ?_⟩
  rcases step_cases_of_noReset hreset hstep with ⟨-, rfl⟩ | ⟨i, rest, hin, rfl | ⟨instr, hiss, he⟩⟩
  · exact absurd hchanged (by simp [State.idle])
  · exact absurd hchanged (by simp)
  · rcases (exec_effect he).count_cases with ⟨hn, hi⟩ | ⟨count, rfl, hfirst, rfl⟩
    · exact absurd hchanged (by simp [hn, hi])
    · obtain ⟨w, rfl, hd⟩ := hiss.init_word
      exact ⟨hfirst, rfl, w, rest, count, hin, hd, rfl⟩

/-- The records an advance of the chain leaves alone: all but that of the driver served and that of the next. -/
theorem driver_advanceChain_other {s : State} {d e : Nat} (rx : Word) (iv : BitVec 32) (hd : e ≠ d)
    (hnext : e ≠ (d + 1) % s.n) : (advanceChain d rx iv s).driver e = s.driver e := by
  rw [advanceChain, driver_startTransfer, if_neg fun h => hnext h.1, driver_accumulate, if_neg fun h => hd h.1]

/-- No operation writes the record of a driver that is out of range after it. -/
theorem ExecEffect.driver_outOfRange {i : Instr} {s t : State} (he : ExecEffect i s t) (h : s.Inv) {e : Nat}
    (hout : t.n ≤ e) : t.driver e = s.driver e := by
  have hresync : ∀ b, s.n ≤ e → (s.resynced b).driver e = s.driver e := fun b hn => by
    rw [State.driver_resynced h.shaped, if_neg (Nat.not_lt.2 hn)]
  cases he with
  | answered ok v => exact s.driver_respond ok v e
  | configured d sl f hd hf => exact State.driver_configureSlot_other _ _ _ (hd.trans_le hout).ne'
  | recorded d f v hd hf =>
    rw [State.driver_respond]
    exact State.driver_updateDriver_other _ _ (hd.trans_le hout).ne'
  | initialised count hi hfirst =>
    have hle : min count s.cfg.maxDrivers ≤ s.drivers.length := (Nat.min_le_right _ _).trans h.records.ge
    rw [State.initialise_n] at hout
    rw [State.driver_initialise, State.driver_updateFirst _ _ _ _ hle, if_neg (Nat.not_lt.2 hout)]
  | powerLost => rw [State.driver_respond, State.driver_powerLost]
  | resynced hc =>
    rw [State.driver_respond]
    exact hresync _ hout
  | started hn =>
    rw [State.driver_respond, driver_startTransfer, if_neg fun h0 => (hn.trans_le hout).ne' h0.1]
    exact hresync _ hout
  | advanced d rx iv hi hc hirq =>
    rw [State.noResponse_n, advanceChain_n, State.busEnd_n] at hout
    rw [State.driver_noResponse, driver_advanceChain_busEnd]
    exact driver_advanceChain_other rx iv ((h.cur_lt d hc).trans_le hout).ne' ((h.next_lt hc).trans_le hout).ne'
  | halted d hp => rw [State.driver_noResponse, State.driver_haltChain, State.driver_busEnd]

/-- Settles O13: every effect writes records of drivers in range only. -/
theorem recordsOutOfRangeNeverWritten : Obligations.RecordsOutOfRangeNeverWritten := by
  intro s t hinv hreset hstep d hout
  rcases step_cases_of_noReset hreset hstep with ⟨-, rfl⟩ | ⟨i, rest, -, rfl | ⟨instr, -, he⟩⟩
  · rfl
  · rfl
  · exact (exec_effect he).driver_outOfRange (hinv.withInputs rest) hout

end Sys2Proof.Machine
end

section
/-! What a step puts on the bus (10_state.md R22, R23, R25, 40_transfer_scheduler.md R111). -/

namespace Sys2Proof.Machine

/-! ### START -/

/-- The word START sends for a record with the invariants carries the tag of its slot, a poll that of `SmartEnable`, and the
chopper word of a disabled driver has off-time 0 (10_state.md R22, R25). -/
theorem Driver.Inv.nextTransfer_tagged {c : Cfg} {r : Driver} (h : Driver.Inv c r) (hv : c.Valid) :
    (∀ sl, r.nextTransfer.1 = .slot sl → r.nextTransfer.2.1 &&& ~~~c.payloadMask.get sl = c.tag.get sl)
      ∧ (r.nextTransfer.1 = .poll → r.nextTransfer.2.1 &&& ~~~c.payloadMask.smartEnable = c.tag.smartEnable)
      ∧ (r.nextTransfer.1 = .slot .chopperControl → r.en = false → c.slotLayout.toff.get r.nextTransfer.2.1 = 0) := by
  rcases r.nextTransfer_cases with ⟨sl, -, he⟩ | ⟨-, he⟩ <;> rw [he]
  · refine ⟨fun u hu => ?_, nofun, fun hu hen => ?_⟩
    · cases hu
      exact h.tags sl
    · cases hu
      rw [Slots.get_chopperControl, h.chopper_disabled hen, Field.get_set_same _ _ _ hv.slotLayout.toff_inside.fits]
      exact Nat.zero_mod _
  · exact ⟨nofun, fun _ => h.tags .smartEnable, nofun⟩

/-- The record START reads is the one it leaves, the bitmap apart. -/
theorem driver_eq_startTransfer_withPend {s : State} {d : Nat} (hd : d < s.drivers.length) :
    s.driver d = { (startTransfer d s).driver d with pend := (s.driver d).pend } := by
  rw [driver_startTransfer, if_pos ⟨rfl, hd⟩, Driver.nextTransfer_record]

/-- A pending bit START clears is that of the slot it sends. -/
theorem startTransfer_pending {s : State} {d e : Nat} {sl : Slot} (hm : Pending.isMarked (s.driver e).pend sl = true) :
    Pending.isMarked ((startTransfer d s).driver e).pend sl = true
      ∨ (startTransfer d s).trace = s.trace ++ [.tx e (.slot sl) ((s.driver e).reg.get sl)] := by
  rw [driver_startTransfer, startTransfer_trace]
  split
  · next hed =>
    obtain ⟨rfl, -⟩ := hed
    rcases (s.driver e).nextTransfer_cases with ⟨u, -, he⟩ | ⟨-, he⟩ <;> rw [he]
    · by_cases hu : sl = u
      · exact .inr (hu ▸ rfl)
      · left
        rw [Driver.clearPending_pend, Pending.isMarked_unmark, hm]
        simpa using hu
    · exact .inl hm
  · exact .inl hm

/-- ACCUMULATE writes no bitmap and no slot (41_status_accumulator.md R132). -/
theorem accumulate_pend_reg (s : State) (d e : Nat) (rx : Word) (iv : BitVec 32) :
    ((accumulate d rx iv s).driver e).pend = (s.driver e).pend
      ∧ ((accumulate d rx iv s).driver e).reg = (s.driver e).reg := by
  rw [driver_accumulate]
  split
  · next h =>
    obtain ⟨rfl, -⟩ := h
    exact ⟨rfl, rfl⟩
  · exact ⟨rfl, rfl⟩

/-- `kind` and `word` are what START reads of the record `r` under some bitmap (40_transfer_scheduler.md R111). -/
def Driver.Offers (r : Driver) (kind : TxKind) (word : Word) : Prop :=
  ∃ p, kind = (Driver.nextTransfer { r with pend := p }).1 ∧ word = (Driver.nextTransfer { r with pend := p }).2.1

/-- What START sends is read of the record it leaves. -/
theorem offers_startTransfer {s : State} {d : Nat} (hd : d < s.drivers.length) :
    ((startTransfer d s).driver d).Offers (s.driver d).nextTransfer.1 (s.driver d).nextTransfer.2.1 :=
  ⟨(s.driver d).pend, by rw [← driver_eq_startTransfer_withPend hd], by rw [← driver_eq_startTransfer_withPend hd]⟩

/-! ### One operation -/

/-- A step that adds an entry to the trace changes it. -/
theorem trace_ne_of_mem_traceSince {s t : State} {ev : BusEvent} (hm : ev ∈ s.traceSince t) : t.trace ≠ s.trace := by
  intro htr
  rw [State.traceSince_append (l := []) (by simpa using htr)] at hm
  cases hm

/-- The last entry of the trace is new if what stands before it extends the old trace. -/
theorem mem_traceSince_of_last {s t : State} {l : List BusEvent} {ev : BusEvent} (h : t.trace = s.trace ++ l ++ [ev]) :
    ev ∈ s.traceSince t := by
  rw [State.traceSince_append (h.trans (List.append_assoc ..))]
  exact List.mem_append_right _ (List.mem_singleton_self ev)

/-- A word an operation sends goes to a driver in range and is what START reads of its record as the operation leaves it. -/
theorem ExecEffect.sent {i : Instr} {s t : State} (he : ExecEffect i s t) (h : s.Inv) {d : Nat} {kind : TxKind}
    {word : Word} (hm : .tx d kind word ∈ s.traceSince t) : d < t.n ∧ (t.driver d).Offers kind word := by
  have hsilent := trace_ne_of_mem_traceSince hm
  cases he with
  | started hn =>
    have htr : ((startTransfer 0 (s.resynced true)).respond true 0).trace = s.trace ++ _ := startTransfer_trace _ 0
    rw [State.traceSince_append htr, List.mem_singleton] at hm
    cases hm
    exact ⟨hn, offers_startTransfer (by rw [State.length_resynced]; exact hn.trans_le h.shaped)⟩
  | advanced e rx iv hi hc hirq =>
    have htr := startTransfer_trace (accumulate e rx iv (s.busEnd e)) ((e + 1) % s.n)
    rw [accumulate_trace, State.busEnd_trace, List.append_assoc] at htr
    rw [State.traceSince_append (t := (advanceChain e rx iv (s.busEnd e)).noResponse) htr, List.mem_append,
      List.mem_singleton, List.mem_singleton] at hm
    cases hm.resolve_left nofun
    rw [State.noResponse_n, advanceChain_n, State.busEnd_n, State.driver_noResponse, advanceChain]
    refine ⟨h.next_lt hc, offers_startTransfer ?_⟩
    rw [accumulate_drivers, List.length_modify]
    exact (h.next_lt hc).trans_le h.shaped
  | halted e hp =>
    have htr : (haltChain e (s.busEnd e)).noResponse.trace = s.trace ++ [.halt e] := by simp
    rw [State.traceSince_append htr, List.mem_singleton] at hm
    cases hm
  | _ => exact absurd (by simp) hsilent

/-- Settles O50: a step that sends anything is one operation that starts a transfer, and the invariants hold of the record it
leaves. -/
theorem everyWordSentCarriesItsTag : Obligations.EveryWordSentCarriesItsTag := by
  intro s t d kind word hinv hstep hm
  have hinv' : t.Inv := everyStepKeepsTheInvariants s t hinv hstep
  have hsent : d < t.n ∧ (t.driver d).Offers kind word := by
    have hne := trace_ne_of_mem_traceSince hm
    rcases step_cases hstep with ⟨-, rfl⟩ | ⟨i, rest, -, rfl | ⟨instr, -, he⟩ | ⟨-, rfl⟩⟩
    · exact absurd rfl hne
    · exact absurd rfl hne
    · exact (exec_effect he).sent (hinv.withInputs rest) hm
    · exact absurd rfl hne
  obtain ⟨hd, p, rfl, rfl⟩ := hsent
  exact ⟨hd, ((hinv'.drivers d hd).withPend p).nextTransfer_tagged hinv'.cfg_valid⟩

/-- A pending bit is kept by an operation, or the slot is sent. -/
theorem ExecEffect.pending_kept_or_sent {i : Instr} {s t : State} (he : ExecEffect i s t) (h : s.Inv) {d : Nat}
    {sl : Slot} (hd : d < s.n) (hm : Pending.isMarked (s.driver d).pend sl = true) :
    Pending.isMarked (t.driver d).pend sl = true ∨ .tx d (.slot sl) ((s.driver d).reg.get sl) ∈ s.traceSince t := by
  have hresync : ∀ b, (s.resynced b).driver d = (s.driver d).resync := fun b => by
    rw [State.driver_resynced h.shaped, if_pos hd]
  have hlen : d < s.drivers.length := hd.trans_le h.shaped
  cases he with
  | answered ok v => exact .inl hm
  | configured e u f he hf =>
    left
    by_cases hde : d = e
    · subst hde
      rw [State.driver_configureSlot_same _ _ _ hlen, Driver.markPending_pend, hf.pend, Pending.isMarked_mark,
        hm, Bool.or_true]
    · rw [State.driver_configureSlot_other _ _ _ hde, hm]
  | recorded e f v he hf =>
    left
    rw [State.driver_respond, State.driver_updateDriver]
    split
    · next hde => rw [hf.pend, ← hde.1, hm]
    · exact hm
  | initialised count hi hfirst => exact absurd (h.n_zero hfirst) (Nat.ne_of_gt ((Nat.zero_le d).trans_lt hd))
  | powerLost => exact .inl hm
  | resynced hc =>
    left
    rw [State.driver_respond, hresync, Driver.resync_pend, Pending.isMarked_full]
  | started hn =>
    have hfull : Pending.isMarked ((s.resynced true).driver d).pend sl = true := by
      rw [hresync, Driver.resync_pend, Pending.isMarked_full]
    refine (startTransfer_pending (d := 0) hfull).imp id fun htr => ?_
    rw [hresync, Driver.resync_reg, State.resynced_trace] at htr
    exact mem_traceSince_of_last (l := []) (by rw [State.respond_trace, htr, List.append_nil])
  | advanced e rx iv hi hc hirq =>
    obtain ⟨hp, hr⟩ := accumulate_pend_reg (s.busEnd e) e d rx iv
    rw [State.driver_busEnd] at hp hr
    rw [State.driver_noResponse, advanceChain]
    refine (startTransfer_pending (by rw [hp, hm])).imp id fun htr => ?_
    rw [hr, accumulate_trace, State.busEnd_trace] at htr
    exact mem_traceSince_of_last (by rw [State.noResponse_trace, htr])
  | halted e hp => exact .inl hm

/-- Settles O49: a pending bit an operation does not keep is that of the slot it sends. -/
theorem pendingClearedOnlyByTransmission : Obligations.PendingClearedOnlyByTransmission := by
  intro s t d sl hinv hreset hd hstep hm hcleared
  have hkept : Pending.isMarked (t.driver d).pend sl ≠ true := by rw [hcleared]; nofun
  rcases step_cases_of_noReset hreset hstep with ⟨-, rfl⟩ | ⟨i, rest, -, rfl | ⟨instr, -, he⟩⟩
  · exact absurd hm hkept
  · exact absurd hm hkept
  · exact ((exec_effect he).pending_kept_or_sent (hinv.withInputs rest) hd hm).resolve_left hkept

end Sys2Proof.Machine
end

section
/-! The boundary: which select line is asserted (10_state.md R35). -/

namespace Sys2Proof.Machine

/-- No two drivers share a select signal (00_scope.md R5). -/
theorem select_inj {c : Cfg} (hv : c.Valid) {d e : Nat} (hd : d < c.maxDrivers) (he : e < c.maxDrivers) :
    c.select d = c.select e ↔ d = e := by
  have hd' := hd.trans_le hv.selectMap_total
  have he' := he.trans_le hv.selectMap_total
  rw [Cfg.select, Cfg.select, List.getD_eq_getElem _ _ hd', List.getD_eq_getElem _ _ he']
  exact hv.selectMap_nodup.getElem_inj_iff

/-- The line of a driver in range is asserted exactly while that driver owns the bus. -/
theorem State.Inv.selectLine_iff {s : State} (h : s.Inv) {d : Nat} (hd : d < s.n) :
    s.selectLine (s.cfg.select d) = true ↔ s.cur = some d := by
  rw [State.selectLine]
  cases hc : s.cur with
  | none => simp
  | some e =>
    have he := h.cur_lt e hc
    simp [select_inj h.cfg_valid (he.trans_le h.n_le) (hd.trans_le h.n_le)]

/-- Settles O57: two asserted lines name one `cur`. -/
theorem atMostOneSelectAsserted : Obligations.AtMostOneSelectAsserted := by
  intro s d e hinv hd he
  refine ⟨hinv.selectLine_iff hd, fun hsd hse => ?_, rfl⟩
  have hcd := (hinv.selectLine_iff hd).1 hsd
  have hce := (hinv.selectLine_iff he).1 hse
  exact Option.some.inj (hcd.symm.trans hce)

end Sys2Proof.Machine
end

section
/-! Between two COMPLETEs: setters coalesce, and the next START sends the last value a slot took (20_memory.md R70,
40_transfer_scheduler.md R111). -/

namespace Sys2Proof

/-! ### Slots and bitmaps -/

/-- The slots in order stand at their indices (20_memory.md R61). -/
theorem Slot.all_getElem?_index (u : Slot) : Slot.all[u.index]? = some u := by
  cases u <;> rfl

/-- No two slots share an index. -/
theorem Slot.index_inj {u v : Slot} (h : u.index = v.index) : u = v :=
  Option.some.inj <| by rw [← Slot.all_getElem?_index u, h, Slot.all_getElem?_index v]

/-- A slot marked pending twice is marked once (20_memory.md R72 a). -/
theorem Pending.mark_mark (p : Pending) (sl : Slot) : Pending.mark (Pending.mark p sl) sl = Pending.mark p sl := by
  refine Pending.ext_isMarked fun u => ?_
  rw [Pending.isMarked_mark, Pending.isMarked_mark, ← Bool.or_assoc, Bool.or_self]

end Sys2Proof

namespace Sys2Proof.Machine

/-! ### A slot configured twice -/

/-- One field of slot 1 written and the slot marked: the second time replaces the first (20_memory.md R70). -/
theorem Driver.writeStallGuard_markPending_twice (r : Driver) (f : Field) (u v : Nat) :
    (((r.writeStallGuard f u).markPending .stallGuardConfig).writeStallGuard f v).markPending .stallGuardConfig
      = (r.writeStallGuard f v).markPending .stallGuardConfig := by
  simp only [Driver.writeStallGuard, Driver.writeSlot, Driver.markPending, Slots.set_stallGuardConfig, Field.set_set,
    Slots.set_set, Pending.mark_mark]

/-- A slot configured twice is as configured by the second alone, if the record is. -/
theorem State.configureSlot_configureSlot (s : State) (d : Nat) (sl : Slot) (f g : Driver → Driver)
    (hfg : ∀ r, (g ((f r).markPending sl)).markPending sl = (g r).markPending sl) :
    (s.configureSlot d sl f).configureSlot d sl g = s.configureSlot d sl g := by
  simp only [State.configureSlot, State.updateDriver, State.respond, List.modify_modify_eq]
  congr 2
  exact funext hfg

/-- Settles O51: in range the second write replaces the field the first one wrote; out of range both answer `fail`. -/
theorem secondSetCurrentSupersedesTheFirst : Obligations.SecondSetCurrentSupersedesTheFirst := by
  intro s t d a b hfirst
  rw [exec_setCurrent] at hfirst
  rcases indexed_cases hfirst with ⟨hd, rfl⟩ | ⟨hd, rfl⟩
  · rw [exec_setCurrent, exec_setCurrent, indexed_of_lt _ hd, indexed_of_lt _ (by simpa using hd)]
    exact congrArg _ (s.configureSlot_configureSlot _ _ _ _ fun r => r.writeStallGuard_markPending_twice _ _ _)
  · rw [exec_setCurrent, exec_setCurrent, indexed_of_ge _ hd, indexed_of_ge _ (by simpa using hd)]
    rfl

/-! ### Runs that start no transfer -/

/-- No operation takes an entry from the trace (20_memory.md R62). -/
theorem ExecEffect.trace_prefix {i : Instr} {s t : State} (he : ExecEffect i s t) : s.trace <+: t.trace := by
  cases he with
  | started hn => exact ⟨_, (startTransfer_trace (s.resynced true) 0).symm⟩
  | advanced d rx iv hi hc hirq => exact ⟨_, (trace_advanceChain (s.busEnd d) d rx iv).symm⟩
  | halted d hp => exact ⟨[.halt d], by simp⟩
  | _ => simp

/-- No step takes an entry from the trace, not even the reset input. -/
theorem step_trace_prefix {s t : State} (h : step s = .next t) : s.trace <+: t.trace := by
  rcases step_cases h with ⟨-, rfl⟩ | ⟨i, rest, -, rfl | ⟨instr, -, he⟩ | ⟨-, rfl⟩⟩
  · exact List.prefix_rfl
  · exact List.prefix_rfl
  · exact (exec_effect he).trace_prefix
  · exact List.prefix_rfl

theorem run_trace_prefix {k : Nat} {s t : State} (h : Host.Core.run Sys2Proof.core k s = .next t) :
    s.trace <+: t.trace := by
  induction k generalizing s with
  | zero =>
    cases h
    exact List.prefix_rfl
  | succ k ih =>
    obtain ⟨u, hstep, hrun⟩ := run_succ_next h
    exact (step_trace_prefix hstep).trans (ih hrun)

/-- While a transfer is in flight, an operation that records nothing on the bus leaves that transfer and the driver count
alone (40_transfer_scheduler.md R114, 43_power_control.md R180). -/
theorem ExecEffect.cur_n_of_silent {i : Instr} {s t : State} (he : ExecEffect i s t) (h : s.Inv) (hc : s.cur ≠ none)
    (hsilent : t.trace = s.trace) : t.cur = s.cur ∧ t.n = s.n := by
  cases he with
  | initialised count hi hfirst => exact absurd ((h.cur_inited hc).2.symm.trans hfirst) nofun
  | started hn =>
    have htr := startTransfer_trace (s.resynced true) 0
    exact absurd (htr.symm.trans hsilent) (by simp)
  | advanced d rx iv hi hc hirq =>
    have htr := trace_advanceChain (s.busEnd d) d rx iv
    exact absurd (htr.symm.trans hsilent) (by simp)
  | halted d hp => exact absurd hsilent (by simp)
  | _ => simp

/-- The same of a step that takes no reset input. -/
theorem step_cur_n_of_silent {s t : State} (h : s.Inv) (hreset : s.NoResetToCome) (hc : s.cur ≠ none)
    (hstep : step s = .next t) (hsilent : t.trace = s.trace) : t.cur = s.cur ∧ t.n = s.n := by
  rcases step_cases_of_noReset hreset hstep with ⟨-, rfl⟩ | ⟨i, rest, -, rfl | ⟨instr, -, he⟩⟩
  · exact ⟨rfl, rfl⟩
  · exact ⟨rfl, rfl⟩
  · exact (exec_effect he).cur_n_of_silent (h.withInputs rest) hc hsilent

/-- A run that records nothing on the bus keeps the invariants, the transfer in flight and the driver count: each of its steps
records nothing, because the trace only grows. -/
theorem run_inv_cur_n_of_silent {k : Nat} {s t : State} (h : s.Inv) (hreset : s.NoResetToCome) (hc : s.cur ≠ none)
    (hrun : Host.Core.run Sys2Proof.core k s = .next t) (hsilent : t.trace = s.trace) :
    t.Inv ∧ t.cur = s.cur ∧ t.n = s.n := by
  induction k generalizing s with
  | zero =>
    cases hrun
    exact ⟨h, rfl, rfl⟩
  | succ k ih =>
    obtain ⟨u, hstep, hrest⟩ := run_succ_next hrun
    have hu : u.trace = s.trace :=
      (hsilent ▸ run_trace_prefix hrest).eq_of_length_le (step_trace_prefix hstep).length_le
    obtain ⟨hcur, hn⟩ := step_cur_n_of_silent h hreset hc hstep hu
    obtain ⟨hinv, hcur', hn'⟩ :=
      ih (everyStepKeepsTheInvariants s u h hstep) (hreset.step hstep) (hcur ▸ hc) hrest (hsilent.trans hu.symm)
    exact ⟨hinv, hcur'.trans hcur, hn'.trans hn⟩

/-! ### The START of the next COMPLETE -/

/-- The selector answers the marked slot with no marked slot below it (40_transfer_scheduler.md R112). -/
theorem Pending.lowestSet_of_isMarked {p : Pending} {sl : Slot} (hm : Pending.isMarked p sl = true)
    (hbelow : ∀ v : Slot, v.index < sl.index → Pending.isMarked p v = false) : Pending.lowestSet p = some sl := by
  cases hl : Pending.lowestSet p with
  | none =>
    rw [Pending.eq_zero_of_lowestSet hl] at hm
    simp [Pending.isMarked] at hm
  | some u =>
    have hu := Pending.isMarked_of_lowestSet hl
    rcases lt_trichotomy u.index sl.index with hlt | heq | hgt
    · exact absurd ((hbelow u hlt).symm.trans hu) nofun
    · rw [Slot.index_inj heq]
    · exact absurd ((Pending.isMarked_below_lowestSet hl hgt).symm.trans hm) nofun

/-- A powered COMPLETE sends the value of the next driver's lowest pending slot and leaves its bit clear
(40_transfer_scheduler.md R111, R113). -/
theorem advanceChain_sends_lowest {s : State} {d : Nat} {sl : Slot} (rx : Word) (iv : BitVec 32)
    (hlen : (d + 1) % s.n < s.drivers.length)
    (hl : Pending.lowestSet (s.driver ((d + 1) % s.n)).pend = some sl) :
    (advanceChain d rx iv s).trace = s.trace
        ++ [.rx d rx iv, .tx ((d + 1) % s.n) (.slot sl) ((s.driver ((d + 1) % s.n)).reg.get sl)]
      ∧ Pending.isMarked ((advanceChain d rx iv s).driver ((d + 1) % s.n)).pend sl = false := by
  have hnext : (s.driver ((d + 1) % s.n)).nextTransfer = (.slot sl, (s.driver ((d + 1) % s.n)).reg.get sl,
      (s.driver ((d + 1) % s.n)).clearPending sl) := by
    rw [Driver.nextTransfer, hl]
  rw [trace_advanceChain, pend_advanceChain, if_pos ⟨rfl, hlen⟩, hnext, Driver.clearPending_pend, Pending.isMarked_unmark]
  simp

/-- Settles O52: the silent run leaves the same transfer in flight, so the next COMPLETE starts the driver after it. -/
theorem nextStartSendsTheLastValue : Obligations.NextStartSendsTheLastValue := by
  intro s t u rx iv d sl k hinv hreset _ hcur hrun hsilent hpowered hcomplete hm hbelow
  obtain ⟨hinv', hcur', hn⟩ := run_inv_cur_n_of_silent hinv hreset (by simp [hcur]) hrun hsilent
  have hc : t.cur = some d := hcur'.trans hcur
  have hirq : t.irqEn = true := hinv'.irq_iff.2 (by simp [hc])
  rw [exec_complete_powered rx iv hc hirq hpowered] at hcomplete
  cases hcomplete
  rw [← hn] at hm hbelow ⊢
  obtain ⟨htrace, hclear⟩ := advanceChain_sends_lowest (s := t.busEnd d) rx iv
    ((hinv'.next_lt hc).trans_le hinv'.shaped) (Pending.lowestSet_of_isMarked hm hbelow)
  exact ⟨State.traceSince_append (htrace.trans (by simp [hsilent])), hclear⟩

end Sys2Proof.Machine
end

section
/-! What the fields of a stimulus word can hold, and which of its bits they are read from (30_encoding.md R81, R84, R85). -/

namespace Sys2Proof

/-! ### Ranges -/

/-- `drv` has 8 bits (30_encoding.md R81). -/
theorem drvField_lt (w : StimulusWord) : drvField w < 2 ^ 8 :=
  (w.extractLsb' 48 8).isLt

/-- A raw operand lies in its slot's payload mask (30_encoding.md R85). -/
theorem rawField_outside (c : Cfg) (s : Slot) (w : StimulusWord) : rawField c s w &&& ~~~c.payloadMask.get s = 0 :=
  and_outside _ _

/-- The retain-mask has `W` bits (30_encoding.md R85). -/
theorem maskField_fits (c : Cfg) (w : StimulusWord) : c.FitsWord (maskField c w) :=
  and_outside _ _

/-- The received word has `W` bits (30_encoding.md R84). -/
theorem rxField_fits (c : Cfg) (w : StimulusWord) : c.FitsWord (rxField c w) :=
  and_outside _ _

/-! ### The bits read -/

theorem getElem_operandField (w : StimulusWord) {b : Nat} (hb : b < 32) : (operandField w)[b] = w.getLsbD b := by
  simp [operandField]

/-- `shift` is the low byte of the word (30_encoding.md R85). -/
theorem extractLsb'_operandField (w : StimulusWord) : (operandField w).extractLsb' 0 8 = w.extractLsb' 0 8 := by
  refine BitVec.eq_of_getLsbD_eq fun b hb => ?_
  simp [operandField, hb]

/-- Words that agree on the bits of a field have the same field. -/
theorem extractLsb'_congr {w v : StimulusWord} {lo len : Nat}
    (h : ∀ b, b < len → w.getLsbD (lo + b) = v.getLsbD (lo + b)) : w.extractLsb' lo len = v.extractLsb' lo len := by
  refine BitVec.eq_of_getLsbD_eq fun b hb => ?_
  rw [BitVec.getLsbD_extractLsb', BitVec.getLsbD_extractLsb', h b hb]

/-- A field read through a mask depends on the bits of the mask alone. -/
theorem extractLsb'_and_congr {w v : StimulusWord} {lo len : Nat} {m : BitVec len}
    (h : ∀ b, m.getLsbD b = true → w.getLsbD (lo + b) = v.getLsbD (lo + b)) :
    w.extractLsb' lo len &&& m = v.extractLsb' lo len &&& m := by
  refine BitVec.eq_of_getLsbD_eq fun b _ => ?_
  rw [BitVec.getLsbD_and, BitVec.getLsbD_and, BitVec.getLsbD_extractLsb', BitVec.getLsbD_extractLsb']
  cases hm : m.getLsbD b with
  | false => rw [Bool.and_false, Bool.and_false]
  | true => rw [h b hm]

theorem rawField_congr {c : Cfg} {s : Slot} {w v : StimulusWord}
    (h : ∀ b, (c.payloadMask.get s).getLsbD b = true → w.getLsbD b = v.getLsbD b) : rawField c s w = rawField c s v :=
  extractLsb'_and_congr fun b hb => by rw [Nat.zero_add, h b hb]

/-- The masks of slots 2 and 4 in the reference configuration are `operand[16:0]` (30_encoding.md R85). -/
theorem le_16_of_reference_payload {s : Slot} (hs : s = .chopperControl ∨ s = .smartEnable) {b : Nat}
    (h : (Cfg.reference.payloadMask.get s).getLsbD b = true) : b ≤ 16 := by
  have hb : b < 24 := BitVec.lt_of_getLsbD h
  rcases hs with rfl | rfl <;> (revert b; decide)

theorem lt_wordBits_of_wordMask {c : Cfg} {b : Nat} (h : c.wordMask.getLsbD b = true) : b < c.wordBits := by
  rw [Cfg.getLsbD_wordMask, decide_eq_true_eq] at h
  exact h.1

theorem maskField_congr {c : Cfg} {w v : StimulusWord} (h : ∀ b, b < c.wordBits → w.getLsbD b = v.getLsbD b) :
    maskField c w = maskField c v :=
  extractLsb'_and_congr fun b hb => by rw [Nat.zero_add, h b (lt_wordBits_of_wordMask hb)]

theorem rxField_congr {c : Cfg} {w v : StimulusWord} (h : ∀ b, b < 32 + c.wordBits → w.getLsbD b = v.getLsbD b) :
    rxField c w = rxField c v :=
  extractLsb'_and_congr fun _ hb => h _ (Nat.add_lt_add_left (lt_wordBits_of_wordMask hb) 32)

theorem ivField_congr {w v : StimulusWord} (h : ∀ b, b < 32 → w.getLsbD b = v.getLsbD b) : ivField w = ivField v :=
  extractLsb'_congr fun b hb => by rw [Nat.zero_add, h b hb]

end Sys2Proof
end

section
/-! The decoder is a look-up in the opcode map by the opcode (30_encoding.md R83, R88); with it, the statements about words that
decode and words that do not. -/

namespace Sys2Proof

/-! ### The look-up -/

/-- The opcode column of 30_encoding.md R83. -/
theorem map_opcode_opcodeMap (c : Cfg) : (opcodeMap c).map OpcodeRow.opcode =
    [0x01, 0x02, 0x03, 0x10, 0x11, 0x12, 0x13, 0x14, 0x15, 0x16, 0x17, 0x20, 0x21, 0x22, 0x23, 0x24, 0x30, 0x31, 0xC0] :=
  rfl

/-- Everything the decoder can answer: what the row of the word's opcode reads, or an error when there is none. -/
theorem decode_cases (c : Cfg) (w : StimulusWord) :
    (∃ r ∈ opcodeMap c, r.opcode = opcodeField w ∧ decode c w = .ok (r.operands w))
      ∨ (opcodeField w ∉ (opcodeMap c).map OpcodeRow.opcode
        ∧ decode c w = .error (.reservedOpcode (opcodeField w))) := by
  unfold decode
  split
  · next r hr => exact .inl ⟨r, List.mem_of_find?_eq_some hr, by simpa using List.find?_some hr, rfl⟩
  · next hn => exact .inr ⟨by simpa using hn, rfl⟩

theorem decode_eq_ok_of_rows {c : Cfg} {w : StimulusWord} {i : Instr}
    (hop : opcodeField w ∈ (opcodeMap c).map OpcodeRow.opcode)
    (hrow : ∀ r ∈ opcodeMap c, r.opcode = opcodeField w → r.operands w = i) : decode c w = .ok i := by
  rcases decode_cases c w with ⟨r, hr, hro, hd⟩ | ⟨hn, -⟩
  · rw [hd, hrow r hr hro]
  · exact absurd hop hn

/-- A reserved opcode is refused by name (30_encoding.md R88 a). -/
theorem decode_of_reserved {c : Cfg} {w : StimulusWord} (hop : opcodeField w ∉ (opcodeMap c).map OpcodeRow.opcode) :
    decode c w = .error (.reservedOpcode (opcodeField w)) := by
  rcases decode_cases c w with ⟨r, hr, hro, -⟩ | ⟨-, hd⟩
  · exact absurd (hro ▸ List.mem_map_of_mem hr) hop
  · exact hd

/-- Words with one opcode decode alike if the row of that opcode reads the same operation from both. -/
theorem decode_congr {c : Cfg} {w v : StimulusWord} (hop : opcodeField w = opcodeField v)
    (hrow : ∀ r ∈ opcodeMap c, r.opcode = opcodeField w → r.operands w = r.operands v) : decode c w = decode c v := by
  unfold decode
  rw [← hop]
  split
  · next r hr => exact congrArg _ (hrow r (List.mem_of_find?_eq_some hr) (by simpa using List.find?_some hr))
  · rfl

/-! ### The operands read from any word -/

/-- Every row of the opcode map reads operands that fit their fields (30_encoding.md R81, R84, R85). -/
theorem wf_operands (c : Cfg) (w : StimulusWord) : ∀ r ∈ opcodeMap c, (r.operands w).wf c = true := by
  have hdrv := drvField_lt w
  have hcount := (operandField w).isLt
  have hshift := ((operandField w).extractLsb' 0 8).isLt
  have hvLow := (operandField w).le_toInt
  have hvHigh := (operandField w).toInt_lt
  have hchopper := rawField_outside c .chopperControl w
  have hsmart := rawField_outside c .smartEnable w
  have hmask := maskField_fits c w
  have hrx := rxField_fits c w
  simp only [opcodeMap, List.forall_mem_cons, Instr.wf, Bool.and_eq_true, decide_eq_true_eq, beq_iff_eq]
  exact ⟨hcount, trivial, trivial, ⟨hdrv, hshift⟩, ⟨hdrv, hcount⟩, ⟨hdrv, hchopper⟩, hdrv, ⟨⟨hdrv, hvLow⟩, hvHigh⟩, hdrv,
    ⟨hdrv, hsmart⟩, ⟨hdrv, hcount⟩, hdrv, hdrv, hdrv, hdrv, ⟨hdrv, hmask⟩, hdrv, hdrv, hrx, nofun⟩

/-- Settles O2: an operation that is decoded was read by a row of the opcode map. -/
theorem decodedOperandsInRange : Obligations.DecodedOperandsInRange := by
  intro c w i h
  obtain ⟨r, hr, rfl⟩ := exists_row_of_decode h
  exact wf_operands c w r hr

/-! ### The operands read from an encoded word -/

theorem opcodeField_encode (i : Instr) : opcodeField (encode i) = Laws.OpcodeByte.opcode i := by
  cases i with
  | complete rx iv => exact opcodeField_eventWord rx iv
  | _ => exact opcodeField_commandWord _ _ _

theorem opcode_mem_opcodeMap (c : Cfg) (i : Instr) :
    Laws.OpcodeByte.opcode i ∈ (opcodeMap c).map OpcodeRow.opcode := by
  rw [map_opcode_opcodeMap]
  cases i <;> simp [Laws.OpcodeByte.opcode]

/-- The row with an operation's opcode reads from the operation's word the operation: each operand that `Instr.wf` bounds comes
back from the field it was written to. -/
theorem operands_encode {c : Cfg} {i : Instr} (h : i.wf c = true) :
    ∀ r ∈ opcodeMap c, r.opcode = Laws.OpcodeByte.opcode i → r.operands (encode i) = i := by
  cases i with
  | setMicrostepping d shift interp =>
    obtain ⟨hd, hshift⟩ : d < 256 ∧ shift < 256 := by simpa [Instr.wf] using h
    simp [opcodeMap, Laws.OpcodeByte.opcode, encode_setMicrostepping, hd, hshift]
  | setChopperConfig d raw =>
    obtain ⟨hd, hraw⟩ : d < 256 ∧ raw &&& ~~~c.payloadMask.chopperControl = 0 := by simpa [Instr.wf] using h
    simp [opcodeMap, Laws.OpcodeByte.opcode, encode, hd, and_eq_of_outside hraw]
  | setCoolStepConfig d raw =>
    obtain ⟨hd, hraw⟩ : d < 256 ∧ raw &&& ~~~c.payloadMask.smartEnable = 0 := by simpa [Instr.wf] using h
    simp [opcodeMap, Laws.OpcodeByte.opcode, encode, hd, and_eq_of_outside hraw]
  | setStallThreshold d v =>
    obtain ⟨⟨hd, hlow⟩, hhigh⟩ : (d < 256 ∧ -2 ^ 31 ≤ v) ∧ v < 2 ^ 31 := by simpa [Instr.wf] using h
    have hv : (BitVec.ofInt 32 v).toInt = v := BitVec.toInt_ofInt_eq_self (by decide) hlow hhigh
    simp [opcodeMap, Laws.OpcodeByte.opcode, encode, hd, hv, -BitVec.toInt_ofInt]
  | readAccumulatedStatus d mask =>
    obtain ⟨hd, hmask⟩ : d < 256 ∧ c.FitsWord mask := by simpa [Instr.wf] using h
    simp [opcodeMap, Laws.OpcodeByte.opcode, encode, hd, and_eq_of_outside hmask]
  | complete rx iv =>
    have hrx : c.FitsWord rx := by simpa [Instr.wf] using h
    simp [opcodeMap, Laws.OpcodeByte.opcode, encode, and_eq_of_outside hrx]
  | spin powered | forceOff => simp [opcodeMap, Laws.OpcodeByte.opcode, encode]
  | _ => simpa [opcodeMap, Laws.OpcodeByte.opcode, encode, Instr.wf] using h

/-- Settles O1: the opcode map has a row for the opcode the encoder writes, and that row reads the operands back. -/
theorem decodeEncodeRoundTrip : Obligations.DecodeEncodeRoundTrip := by
  intro c i hwf
  refine decode_eq_ok_of_rows ?_ ?_
  · rw [opcodeField_encode]
    exact opcode_mem_opcodeMap c i
  · rw [opcodeField_encode]
    exact operands_encode hwf

/-! ### Bits no row reads -/

/-- Settles O3: in each clause the one row with the opcode reads fields of the bits the words share. -/
theorem reservedBitsIgnored : Obligations.ReservedBitsIgnored := by
  intro c w v hop
  refine ⟨?init, ?spin, ?forceOff, ?setMicrostepping, ?number, ?setChopperConfig, ?setCoolStepConfig, ?reference, ?bit,
    ?driverOnly, ?readAccumulatedStatus, ?complete⟩
  case init =>
    intro h hcount
    exact decode_congr hop (by simp [opcodeMap, h, hcount])
  case spin =>
    intro h hbit
    exact decode_congr hop (by simpa [opcodeMap, h, getElem_operandField] using hbit)
  case forceOff =>
    intro h
    exact decode_congr hop (by simp [opcodeMap, h])
  case setMicrostepping =>
    intro h hd hbits
    have hbyte : w.extractLsb' 0 8 = v.extractLsb' 0 8 :=
      extractLsb'_congr fun b hb => by rw [Nat.zero_add, hbits b (by omega)]
    have hshift : ((operandField w).extractLsb' 0 8).toNat = ((operandField v).extractLsb' 0 8).toNat := by
      rw [extractLsb'_operandField, extractLsb'_operandField, hbyte]
    have hinterp : (operandField w)[8] = (operandField v)[8] := by
      rw [getElem_operandField, getElem_operandField, hbits 8 le_rfl]
    exact decode_congr hop (by simpa [opcodeMap, h, hd, hinterp] using hshift)
  case number =>
    rintro (h | h | h) hd hoperand <;> exact decode_congr hop (by simp [opcodeMap, h, hd, hoperand])
  case setChopperConfig =>
    intro h hd hbits
    have hraw : rawField c .chopperControl w = rawField c .chopperControl v := rawField_congr hbits
    exact decode_congr hop (by simp [opcodeMap, h, hd, hraw])
  case setCoolStepConfig =>
    intro h hd hbits
    have hraw : rawField c .smartEnable w = rawField c .smartEnable v := rawField_congr hbits
    exact decode_congr hop (by simp [opcodeMap, h, hd, hraw])
  case reference =>
    intro h hd hbits
    have hraw : ∀ s : Slot, s = .chopperControl ∨ s = .smartEnable →
        rawField Cfg.reference s w = rawField Cfg.reference s v :=
      fun s hs => rawField_congr fun b hb => hbits b (le_16_of_reference_payload hs hb)
    rcases h with h | h <;> exact decode_congr hop (by simp [opcodeMap, h, hd, hraw])
  case bit =>
    rintro (h | h) hd hbit <;>
      exact decode_congr hop (by simpa [opcodeMap, h, hd, getElem_operandField] using hbit)
  case driverOnly =>
    rintro (h | h | h | h | h | h) hd <;> exact decode_congr hop (by simp [opcodeMap, h, hd])
  case readAccumulatedStatus =>
    intro h hd hbits
    exact decode_congr hop (by simp [opcodeMap, h, hd, maskField_congr hbits])
  case complete =>
    intro h hbits
    have hiv : ivField w = ivField v := ivField_congr fun b hb => hbits b (by omega)
    exact decode_congr hop (by simp [opcodeMap, h, rxField_congr hbits, hiv])

/-! ### Words of the test vectors -/

theorem decode_of_encode_eq {c : Cfg} {i : Instr} {w : StimulusWord} (hwf : i.wf c = true) (hw : encode i = w) :
    decode c w = .ok i :=
  hw ▸ decodeEncodeRoundTrip c i hwf

/-- Settles O4: six of the words are as the encoder writes them, and the third is so up to operand bits above the payload. -/
theorem writtenOutWordsDecode : Obligations.WrittenOutWordsDecode := by
  refine ⟨decode_of_encode_eq ?_ ?_, decode_of_encode_eq ?_ ?_, ?upToReservedBits, decode_of_encode_eq ?_ ?_,
    decode_of_encode_eq ?_ ?_, decode_of_encode_eq ?_ ?_, decode_of_encode_eq ?_ ?_⟩
  case upToReservedBits =>
    obtain ⟨-, -, -, -, -, -, -, hreference, -⟩ :=
      reservedBitsIgnored Cfg.reference 0x12000000FFFE0003 0x1200000000000003 (by decide)
    rw [hreference (by decide) (by decide) (by decide)]
    exact decode_of_encode_eq (by decide) (by decide)
  all_goals decide

end Sys2Proof

namespace Sys2Proof.Machine

/-! ### The step of a word that does not decode -/

/-- Settles O6: the opcode is in no row of the opcode map, so the word is refused and the step answers `fail`. -/
theorem reservedOpcodeFails : Obligations.ReservedOpcodeFails := by
  intro s w rest hinputs hop
  have hdecode := decode_of_reserved (c := s.cfg) (map_opcode_opcodeMap s.cfg ▸ hop)
  calc step s = processStimulus (.word w) { s with inputs := rest } := step_of_cons hinputs
    _ = .next (State.reservedOpcode { s with inputs := rest }) := by simp only [processStimulus, hdecode]

end Sys2Proof.Machine
end

section
/-! When COMPLETE has a step (30_encoding.md R88 d, 40_transfer_scheduler.md R113). -/

namespace Sys2Proof.Machine

theorem State.completeEnabled_iff (s : State) : s.completeEnabled = true ↔ (∃ d, s.cur = some d) ∧ s.irqEn = true := by
  rw [State.completeEnabled, Bool.and_eq_true, Option.isSome_iff_exists]

theorem State.completeEnabled_eq_false_iff (s : State) : s.completeEnabled = false ↔ s.cur = none ∨ s.irqEn = false := by
  rw [State.completeEnabled, Bool.and_eq_false_iff, Option.isSome_eq_false_iff, Option.isNone_iff_eq_none]

/-- An enabled COMPLETE is taken, powered or not. -/
theorem exec_complete_of_enabled {s : State} (rx : Word) (iv : BitVec 32) (h : s.completeEnabled = true) :
    ∃ t, exec (.complete rx iv) s = .next t := by
  obtain ⟨⟨d, hc⟩, hi⟩ := s.completeEnabled_iff.1 h
  cases hp : s.powered with
  | true => exact ⟨_, exec_complete_powered rx iv hc hi hp⟩
  | false => exact ⟨_, exec_complete_unpowered rx iv hc hi hp⟩

/-- A COMPLETE that is not enabled has no step. -/
theorem exec_complete_of_not_enabled {s : State} (rx : Word) (iv : BitVec 32) (h : s.completeEnabled = false) :
    exec (.complete rx iv) s = .fault .completeNotEnabled := by
  cases hc : s.cur with
  | none => simp only [exec, execComplete, hc]
  | some d =>
    have hi : s.irqEn = false := (s.completeEnabled_eq_false_iff.1 h).resolve_left (by simp [hc])
    simp only [exec, execComplete, hc, hi, Bool.false_eq_true, if_false]

/-- Settles O47: the fault and the step exclude each other. -/
theorem completeHasNoStepUnlessEnabled : Obligations.CompleteHasNoStepUnlessEnabled := by
  intro s rx iv
  refine ⟨?_, exec_complete_of_enabled rx iv⟩
  rw [← s.completeEnabled_eq_false_iff]
  refine ⟨fun hfault => ?_, exec_complete_of_not_enabled rx iv⟩
  rw [← Bool.not_eq_true]
  intro henabled
  obtain ⟨t, hnext⟩ := exec_complete_of_enabled rx iv henabled
  exact absurd (hfault.symm.trans hnext) nofun

end Sys2Proof.Machine
end

section
/-! The selector and START, over one record: which slot is sent, which bit is cleared, and how many turns a pending slot still
has to wait (40_transfer_scheduler.md R111, R112, R118). -/

namespace Sys2Proof

/-- The bitmap after `unmark` is written with a shift in 40_transfer_scheduler.md R112. -/
theorem Pending.unmark_eq_shift (p : Pending) (sl : Slot) : Pending.unmark p sl = p &&& ~~~(1#5 <<< sl.index) := by
  cases sl <;> rfl

theorem Pending.isMarked_zero (sl : Slot) : Pending.isMarked 0 sl = false := by
  simp [Pending.isMarked]

theorem Slot.mem_all (sl : Slot) : sl ∈ Slot.all :=
  List.mem_of_getElem? sl.all_getElem?_index

end Sys2Proof

namespace Sys2Proof.Machine

/-! ### The selector -/

/-- Something is pending, so the selector answers. -/
theorem Pending.exists_lowestSet {p : Pending} (h : p ≠ 0) : ∃ sl, Pending.lowestSet p = some sl :=
  Option.ne_none_iff_exists'.1 fun hn => h (Pending.eq_zero_of_lowestSet hn)

/-- The selector never answers a slot above a pending one (40_transfer_scheduler.md R112). -/
theorem Pending.index_le_of_lowestSet {p : Pending} {sl u : Slot} (hl : Pending.lowestSet p = some u)
    (hm : Pending.isMarked p sl = true) : u.index ≤ sl.index := by
  by_contra hlt
  exact absurd (hm.symm.trans (Pending.isMarked_below_lowestSet hl (Nat.lt_of_not_le hlt))) nofun

/-! ### The number of turns to wait -/

/-- A pending slot counts among the slots up to it (40_transfer_scheduler.md R118). -/
theorem pendingUpTo_pos {p : Pending} {sl : Slot} (hm : Pending.isMarked p sl = true) : 0 < pendingUpTo p sl :=
  List.length_pos_of_mem (List.mem_filter.2 ⟨sl.mem_all, by simp [hm]⟩)

/-- The count looks at the slots up to `sl` only, and more pending slots make it no smaller. -/
theorem pendingUpTo_mono {p q : Pending} {sl : Slot}
    (h : ∀ u : Slot, u.index ≤ sl.index → Pending.isMarked q u = true → Pending.isMarked p u = true) :
    pendingUpTo q sl ≤ pendingUpTo p sl := by
  refine (List.monotone_filter_right Slot.all fun u hu => ?_).length_le
  obtain ⟨hle, hq⟩ : u.index ≤ sl.index ∧ Pending.isMarked q u = true := by simpa using hu
  simpa [hle] using h u hle hq

/-- Sending a pending slot up to `sl` takes one off the count. -/
theorem pendingUpTo_unmark {p : Pending} {sl u : Slot} (hle : u.index ≤ sl.index) (hm : Pending.isMarked p u = true) :
    pendingUpTo (Pending.unmark p u) sl + 1 = pendingUpTo p sl := by
  revert p
  cases sl <;> cases u <;> revert hle <;> decide

/-! ### START over one record -/

/-- START marks nothing. -/
theorem Driver.nextTransfer_keeps_unmarked {r : Driver} {u : Slot} (h : Pending.isMarked r.pend u = false) :
    Pending.isMarked r.nextTransfer.2.2.pend u = false := by
  rcases r.nextTransfer_cases with ⟨sl, -, he⟩ | ⟨-, he⟩ <;> rw [he]
  · rw [Driver.clearPending_pend, Pending.isMarked_unmark, h, Bool.and_false]
  · exact h

/-- START of a driver with `sl` pending sends `sl`, or sends a pending slot below it and so brings its turn one nearer
(40_transfer_scheduler.md R118). -/
theorem Driver.nextTransfer_turn {r : Driver} {sl : Slot} (hm : Pending.isMarked r.pend sl = true) :
    (r.nextTransfer.1 = .slot sl ∧ r.nextTransfer.2.1 = r.reg.get sl
        ∧ Pending.isMarked r.nextTransfer.2.2.pend sl = false)
      ∨ (Pending.isMarked r.nextTransfer.2.2.pend sl = true
        ∧ pendingUpTo r.nextTransfer.2.2.pend sl + 1 = pendingUpTo r.pend sl) := by
  rcases r.nextTransfer_cases with ⟨u, hl, he⟩ | ⟨hl, -⟩
  · rw [he, Driver.clearPending_pend, Pending.isMarked_unmark]
    by_cases hu : sl = u
    · subst hu
      exact .inl ⟨rfl, rfl, by simp⟩
    · exact .inr ⟨by simp [hm, hu],
        pendingUpTo_unmark (Pending.index_le_of_lowestSet hl hm) (Pending.isMarked_of_lowestSet hl)⟩
  · rw [Pending.eq_zero_of_lowestSet hl, Pending.isMarked_zero] at hm
    cases hm

/-- Settles O44: START clears the bit of the slot the selector answers, which is not above any pending slot. -/
theorem selectorIsFixedPriority : Obligations.SelectorIsFixedPriority := by
  intro p hp
  obtain ⟨sl, hl⟩ := Pending.exists_lowestSet hp
  refine ⟨sl, hl, Pending.isMarked_of_lowestSet hl, fun u hu => Pending.isMarked_below_lowestSet hl hu, ?_⟩
  rintro d s rfl hd
  have hleft : ((startTransfer d s).driver d).pend = Pending.unmark (s.driver d).pend sl := by
    rw [driver_startTransfer, if_pos ⟨rfl, hd⟩, Driver.nextTransfer, hl, Driver.clearPending_pend]
  rw [hleft]
  refine ⟨Pending.unmark_eq_shift _ sl, fun u hu => ?_⟩
  have hne : u ≠ sl := fun h => hu.ne' (congrArg Slot.index h)
  rw [Pending.isMarked_unmark, decide_eq_true hne, Bool.true_and]

end Sys2Proof.Machine
end

section
/-! A transfer completes and the next driver is served: what that does to the bus, the bitmaps and the slots, and the
statements about the completion handler (40_transfer_scheduler.md R113, R114). -/

namespace Sys2Proof.Machine

/-! ### What is recorded between two states -/

/-- What is recorded over two stretches is what is recorded over the first and then over the second. -/
theorem State.traceSince_trans {s t u : State} (hst : s.trace <+: t.trace) (htu : t.trace <+: u.trace) :
    s.traceSince u = s.traceSince t ++ t.traceSince u := by
  obtain ⟨l, hl⟩ := hst
  obtain ⟨m, hm⟩ := htu
  rw [State.traceSince_append hl.symm, State.traceSince_append hm.symm,
    State.traceSince_append (l := l ++ m) (by rw [← hm, ← hl, List.append_assoc])]

theorem State.traceSince_of_silent {s t : State} (h : t.trace = s.trace) : s.traceSince t = [] :=
  State.traceSince_append (by rw [h, List.append_nil])

theorem startTargets_append (l m : List BusEvent) : startTargets (l ++ m) = startTargets l ++ startTargets m :=
  List.filterMap_append

/-! ### The next driver served -/

/-- The transfer of driver `d` completed with the system powered and the next driver's started: what the rest of the block
sees of it (40_transfer_scheduler.md R113). -/
structure State.ServesNext (d : Nat) (s t : State) : Prop where
  cur : t.cur = some ((d + 1) % s.n)
  n : t.n = s.n
  powered : t.powered = s.powered
  trace : ∃ rx iv, t.trace = s.trace ++ [.rx d rx iv, .tx ((d + 1) % s.n)
    (s.driver ((d + 1) % s.n)).nextTransfer.1 (s.driver ((d + 1) % s.n)).nextTransfer.2.1]
  pend : ∀ e, (t.driver e).pend =
    if e = (d + 1) % s.n then (s.driver e).nextTransfer.2.2.pend else (s.driver e).pend
  reg : ∀ e, (t.driver e).reg = (s.driver e).reg

/-- The powered branch of the completion handler serves the next driver. -/
theorem servesNext_advanceChain {s : State} {d : Nat} (hlen : (d + 1) % s.n < s.drivers.length) (rx : Word)
    (iv : BitVec 32) : State.ServesNext d s (advanceChain d rx iv (s.busEnd d)).noResponse where
  cur := by simp [advanceChain]
  n := by simp
  powered := by simp [advanceChain]
  trace := ⟨rx, iv, trace_advanceChain (s.busEnd d) d rx iv⟩
  pend := fun e => by
    rw [State.driver_noResponse, driver_advanceChain_busEnd, pend_advanceChain]
    exact if_congr (and_iff_left hlen) rfl rfl
  reg := fun e => by
    rw [State.driver_noResponse, driver_advanceChain_busEnd, driver_advanceChain]
    show (if e = d ∧ d < s.drivers.length then (s.driver d).accumulate s.cfg rx iv else s.driver e).reg = _
    split
    · next hed => rw [hed.1, Driver.accumulate_reg]
    · rfl

namespace State.ServesNext

variable {d e : Nat} {s t : State} {sl : Slot}

theorem trace_prefix (h : State.ServesNext d s t) : s.trace <+: t.trace := by
  obtain ⟨rx, iv, htr⟩ := h.trace
  exact ⟨_, htr.symm⟩

/-- Its one START is that of the next driver. -/
theorem startTargets_traceSince (h : State.ServesNext d s t) : startTargets (s.traceSince t) = [(d + 1) % s.n] := by
  obtain ⟨rx, iv, htr⟩ := h.trace
  rw [State.traceSince_append htr]
  rfl

/-- It marks nothing. -/
theorem keeps_unmarked (h : State.ServesNext d s t) (hm : Pending.isMarked (s.driver e).pend sl = false) :
    Pending.isMarked (t.driver e).pend sl = false := by
  rw [h.pend e]
  split
  · exact Driver.nextTransfer_keeps_unmarked hm
  · exact hm

/-- A pending slot is sent, or stays pending and has one START of its driver fewer to wait for if there was one
(40_transfer_scheduler.md R118). -/
theorem turn (h : State.ServesNext d s t) (hm : Pending.isMarked (s.driver e).pend sl = true) :
    (.tx e (.slot sl) ((s.driver e).reg.get sl) ∈ s.traceSince t ∧ Pending.isMarked (t.driver e).pend sl = false)
      ∨ (Pending.isMarked (t.driver e).pend sl = true
        ∧ pendingUpTo (t.driver e).pend sl + (startTargets (s.traceSince t)).count e
          = pendingUpTo (s.driver e).pend sl) := by
  rw [h.pend e, h.startTargets_traceSince]
  split
  · next hed =>
    rw [← hed, List.count_singleton_self]
    refine (Driver.nextTransfer_turn hm).imp (fun ⟨hkind, hword, hclear⟩ => ⟨?_, hclear⟩) id
    obtain ⟨rx, iv, htr⟩ := h.trace
    rw [State.traceSince_append htr, ← hed, hkind, hword]
    simp
  · next hed =>
    exact .inr ⟨hm, by rw [List.count_singleton, if_neg (by simpa using Ne.symm hed), Nat.add_zero]⟩

end State.ServesNext

/-! ### What an operation does to the chain -/

/-- What operation `i` can do to `cur` and to the bus trace (40_transfer_scheduler.md R114). -/
inductive ChainEffect (i : Instr) (s t : State) : Prop where
  | untouched (hcur : t.cur = s.cur) (htrace : t.trace = s.trace)
  /-- advance: a powered COMPLETE -/
  | advanced (rx : Word) (iv : BitVec 32) (d : Nat) (hi : i = .complete rx iv) (hc : s.cur = some d)
      (hp : s.powered = true) (ht : t = (advanceChain d rx iv (s.busEnd d)).noResponse)
  /-- stop: an unpowered COMPLETE -/
  | halted (rx : Word) (iv : BitVec 32) (d : Nat) (hi : i = .complete rx iv) (hc : s.cur = some d)
      (hp : s.powered = false) (ht : t = (haltChain d (s.busEnd d)).noResponse)
  /-- start: power restored to an idle chain -/
  | started (hi : i = .spin true) (hc : s.cur = none) (hp : s.powered = false) (hn : 0 < s.n) (hcur : t.cur = some 0)

/-- An indexed command leaves the chain alone, `Init` is refused while there is one, and of the others COMPLETE and `Spin 1`
touch it. -/
theorem exec_chainEffect {i : Instr} {s t : State} (h : s.Inv) (he : exec i s = .next t) : ChainEffect i s t := by
  cases hi : i.driverIndex with
  | some d =>
    have hframe := exec_indexed_frame hi he
    exact .untouched hframe.cur hframe.trace
  | none =>
    cases i with
    | init count =>
      rw [exec, execInit] at he
      split at he
      · cases he
        exact .untouched rfl rfl
      · next hinited =>
        cases he
        have hidle : s.cur = none := by
          by_contra hc
          exact hinited (h.cur_inited hc).2
        exact .untouched hidle.symm rfl
    | spin p =>
      rcases execSpin_cases he with ⟨rfl, hp, rfl⟩ | ⟨-, -, rfl⟩ | ⟨-, rfl⟩
      · rcases s.powerRestored_cases with ⟨hc, hn, hr⟩ | ⟨-, hr⟩ <;> rw [hr]
        · exact .started rfl hc hp hn rfl
        · exact .untouched rfl rfl
      · exact .untouched rfl rfl
      · exact .untouched rfl rfl
    | forceOff =>
      cases he
      exact .untouched rfl rfl
    | complete rx iv =>
      obtain ⟨d, hc, -, ⟨hp, ht⟩ | ⟨hp, ht⟩⟩ := execComplete_cases he
      · exact .advanced rx iv d rfl hc hp ht
      · exact .halted rx iv d rfl hc hp ht
    | _ => cases hi

/-- Settles O48: of the four effects on the chain, three change `cur`. -/
theorem curChangesInThreeWays : Obligations.CurChangesInThreeWays := by
  intro i s t hinv he hchanged
  cases exec_chainEffect hinv he with
  | untouched hcur => exact absurd hcur hchanged
  | advanced rx iv d hi hc hp ht => exact .inl ⟨rx, iv, d, hi, hp, hc, by rw [ht]; simp⟩
  | halted rx iv d hi hc hp ht => exact .inr (.inl ⟨rx, iv, d, hi, hp, hc, by rw [ht]; simp⟩)
  | started hi hc hp hn hcur => exact .inr (.inr ⟨hi, hp, hn, hc, hcur⟩)

/-- Settles O46: the unpowered branch of the completion handler, written out. -/
theorem completeUnpoweredHalts : Obligations.CompleteUnpoweredHalts :=
  fun _ rx iv _ hc hirq hp => exec_complete_unpowered rx iv hc hirq hp

/-! ### While a transfer is in flight -/

/-- What can happen to the chain while the transfer of driver `d` is in flight. -/
inductive InFlightEffect (d : Nat) (s t : State) : Prop where
  | silent (cur : t.cur = some d) (n : t.n = s.n) (trace : t.trace = s.trace)
  | served (h : State.ServesNext d s t)
  | halted (trace : t.trace = s.trace ++ [.halt d])

theorem exec_inFlight {i : Instr} {d : Nat} {s t : State} (h : s.Inv) (hc : s.cur = some d) (he : exec i s = .next t) :
    InFlightEffect d s t := by
  cases exec_chainEffect h he with
  | untouched hcur htrace =>
    exact .silent (hcur.trans hc) ((exec_effect he).cur_n_of_silent h (by simp [hc]) htrace).2 htrace
  | advanced rx iv e _ he _ ht =>
    cases hc.symm.trans he
    exact .served (ht ▸ servesNext_advanceChain ((h.next_lt hc).trans_le h.shaped) rx iv)
  | halted rx iv e _ he _ ht =>
    cases hc.symm.trans he
    exact .halted (by rw [ht]; simp)
  | started _ hidle => cases hc.symm.trans hidle

/-- Taking the stimulus changes nothing that an effect on the chain is about. -/
theorem InFlightEffect.of_withInputs {d : Nat} {s t : State} {rest : List Stimulus}
    (h : InFlightEffect d { s with inputs := rest } t) : InFlightEffect d s t := by
  cases h with
  | silent hcur hn htrace => exact .silent hcur hn htrace
  | served h => exact .served ⟨h.cur, h.n, h.powered, h.trace, h.pend, h.reg⟩
  | halted htrace => exact .halted htrace

/-- The same of a step that takes no reset input. -/
theorem step_inFlight {d : Nat} {s t : State} (h : s.Inv) (hreset : s.NoResetToCome) (hc : s.cur = some d)
    (hstep : step s = .next t) : InFlightEffect d s t := by
  rcases step_cases_of_noReset hreset hstep with ⟨-, rfl⟩ | ⟨i, rest, -, rfl | ⟨instr, -, he⟩⟩
  · exact .silent hc rfl rfl
  · exact .silent hc rfl rfl
  · exact (exec_inFlight (h.withInputs rest) hc he).of_withInputs

end Sys2Proof.Machine
end

section
/-! A powered COMPLETE, part by part: the gate and the load window as numbers, then the record of the driver that owned the bus
(40_transfer_scheduler.md R113, 41_status_accumulator.md R130 to R132). -/

namespace Sys2Proof

/-- The noise gate on numbers (41_status_accumulator.md R131). -/
theorem stallGate_iff_toNat (iv m : BitVec 32) : stallGate iv m = true ↔ iv.toNat ≠ 0 ∧ iv.toNat ≤ m.toNat := by
  simp [stallGate, BitVec.le_def, BitVec.toNat_eq]

theorem toNat_lowerLoad (m l : Load) : (lowerLoad m l).toNat = min m.toNat l.toNat := by
  unfold lowerLoad
  split
  · next h => exact (min_eq_right (BitVec.lt_def.1 h).le).symm
  · next h => exact (min_eq_left (BitVec.not_lt.1 h)).symm

theorem toNat_upperLoad (m l : Load) : (upperLoad m l).toNat = max m.toNat l.toNat := by
  unfold upperLoad
  split
  · next h => exact (max_eq_right (BitVec.lt_def.1 h).le).symm
  · next h => exact (max_eq_left (BitVec.not_lt.1 h)).symm

namespace Cfg.Valid

variable {c : Cfg}

theorem load_inside (h : c.Valid) : c.statusLayout.load.Inside c.wordMask :=
  h.statusLayout.inside _ (by simp [StatusLayout.fields])

/-- A load reading is held whole (30_encoding.md R96). -/
theorem toNat_loadOf (h : c.Valid) (rx : Word) : (c.loadOf rx).toNat = c.statusLayout.load.get rx := by
  have hfits : c.statusLayout.load.width ≤ maxWordBits := (Nat.le_add_left _ _).trans h.load_inside.fits
  have hlt := Field.get_lt c.statusLayout.load rx h.load_inside.fits
  rw [Cfg.loadOf, BitVec.toNat_ofNat]
  exact Nat.mod_eq_of_lt (hlt.trans_le (Nat.pow_le_pow_right (by decide) hfits))

/-- A cleared stall bit reads 0. -/
theorem sg_clearStall (h : c.Valid) (w : Word) : c.statusLayout.sg.get (c.clearStall w) = 0 := by
  rw [Cfg.clearStall, Field.get_set_same _ _ _ h.sg_inside.fits, Nat.zero_mod]

end Cfg.Valid

/-- Only the stall bit of a status word is filtered (41_status_accumulator.md R132). -/
theorem Cfg.filterStatus_agreesOutside (c : Cfg) (passes : Bool) (rx : Word) :
    c.statusLayout.sg.AgreesOutside (c.filterStatus passes rx) rx := by
  cases passes with
  | true => rfl
  | false => exact Field.set_and_outside _ _ _ _ (by simp)

end Sys2Proof

namespace Sys2Proof.Machine

/-- ACCUMULATE on either side of the gate, in numbers (41_status_accumulator.md R132). -/
theorem Driver.accumulate_gate {c : Cfg} (hv : c.Valid) (r : Driver) (rx : Word) (iv : BitVec 32) :
    if iv.toNat ≠ 0 ∧ iv.toNat ≤ r.maxIv.toNat then
      (r.accumulate c rx iv).live = rx
        ∧ (r.accumulate c rx iv).minLoad.toNat = min r.minLoad.toNat (c.statusLayout.load.get rx)
        ∧ (r.accumulate c rx iv).maxLoad.toNat = max r.maxLoad.toNat (c.statusLayout.load.get rx)
    else
      c.statusLayout.sg.get (r.accumulate c rx iv).live = 0
        ∧ (r.accumulate c rx iv).minLoad = r.minLoad ∧ (r.accumulate c rx iv).maxLoad = r.maxLoad := by
  rw [Driver.accumulate_live, Driver.accumulate_minLoad, Driver.accumulate_maxLoad]
  split
  · next hgate =>
    rw [(stallGate_iff_toNat _ _).2 hgate, if_pos rfl, if_pos rfl, toNat_lowerLoad, toNat_upperLoad, hv.toNat_loadOf]
    exact ⟨rfl, rfl, rfl⟩
  · next hgate =>
    have hfails : stallGate iv r.maxIv = false := by
      rw [← Bool.not_eq_true, stallGate_iff_toNat]
      exact hgate
    rw [hfails]
    exact ⟨hv.sg_clearStall rx, rfl, rfl⟩

/-- Settles O45: the next driver is served, the record of the driver that owned the bus is merged into, and every other field
is as it was. -/
theorem completeAccumulatesAndAdvances : Obligations.CompleteAccumulatesAndAdvances := by
  intro s rx iv d hv hshaped hc hd hirq hp
  have hlen : (d + 1) % s.n < s.drivers.length := (Nat.mod_lt _ ((Nat.zero_le d).trans_lt hd)).trans_le hshaped
  have hserves := servesNext_advanceChain hlen rx iv
  generalize ht : (advanceChain d rx iv (s.busEnd d)).noResponse = t at hserves
  have howner : t.driver d = { (s.driver d).accumulate s.cfg rx iv with pend := (t.driver d).pend } := by
    rw [← ht, State.driver_noResponse, driver_advanceChain_busEnd, driver_advanceChain, if_pos ⟨rfl, hd.trans_le hshaped⟩]
  have hother : ∀ e, e ≠ d → t.driver e = { s.driver e with pend := (t.driver e).pend } := fun e he => by
    rw [← ht, State.driver_noResponse, driver_advanceChain_busEnd, driver_advanceChain, if_neg fun h => he h.1]
  refine ⟨t, (s.driver ((d + 1) % s.n)).nextTransfer.1, (s.driver ((d + 1) % s.n)).nextTransfer.2.1,
    (s.driver ((d + 1) % s.n)).nextTransfer.2.2.pend, ?exec, ?resp, hserves.cur, Driver.nextTransfer_sends _, ?next,
    fun e he => (hserves.pend e).trans (if_neg he), ?acc, ?live, ?gate, ?frame, ?others, ?records, ?trace, ?ports, ?control⟩
  case exec => rw [exec_complete_powered rx iv hc hirq hp, ht]
  case resp => rw [← ht, State.noResponse_resp]
  case next => rw [hserves.pend, if_pos rfl]
  case acc => rw [howner, Driver.accumulate_acc, Driver.accumulate_live]
  case live => rw [howner]; exact s.cfg.filterStatus_agreesOutside _ rx
  case gate => rw [howner]; exact Driver.accumulate_gate hv _ rx iv
  case frame =>
    intro e
    by_cases he : e = d
    · rw [he, howner]; rfl
    · rw [hother e he]
  case others =>
    intro e he
    rw [hother e he]
  case records => rw [← ht]; simp
  case trace => rw [← ht]; exact trace_advanceChain (s.busEnd d) d rx iv
  case ports =>
    rw [← ht, State.noResponse_ports, ports_advanceChain, State.busEnd_ports, List.append_assoc]
    rfl
  case control => rw [← ht]; simp [hp, hirq]

end Sys2Proof.Machine
end

section
/-! Runs: the order of service over any run (40_transfer_scheduler.md R114, R117), and how long a pending slot waits whatever
commands are issued (R118). -/

namespace Sys2Proof.Machine

/-! ### The round -/

/-- The drivers of the `k` STARTs after the one of driver `d`, `n` drivers taking turns (40_transfer_scheduler.md R114). -/
def roundRobin (n d k : Nat) : List Nat :=
  (List.range k).map fun j => (d + 1 + j) % n

@[simp] theorem length_roundRobin (n d k : Nat) : (roundRobin n d k).length = k := by
  simp [roundRobin]

theorem roundRobin_zero (n d : Nat) : roundRobin n d 0 = [] := rfl

/-- Counting on from the next driver is counting on from this one. -/
theorem next_add_mod (n d k : Nat) : ((d + 1) % n + k) % n = (d + (k + 1)) % n := by
  rw [Nat.mod_add_mod]
  congr 1
  omega

/-- The first of the round is the next driver, and the rest is the round from there. -/
theorem roundRobin_succ (n d k : Nat) : roundRobin n d (k + 1) = (d + 1) % n :: roundRobin n ((d + 1) % n) k := by
  rw [roundRobin, List.range_succ_eq_map, List.map_cons, List.map_map]
  refine congrArg _ (List.map_congr_left fun j _ => ?_)
  rw [Function.comp_apply, Nat.add_assoc ((d + 1) % n), next_add_mod]
  congr 1
  omega

theorem roundRobin_add (n d i k : Nat) : roundRobin n d (i + k) = roundRobin n d i ++ roundRobin n (d + i) k := by
  rw [roundRobin, List.range_add, List.map_append, List.map_map]
  refine congrArg _ (List.map_congr_left fun j _ => ?_)
  rw [Function.comp_apply]
  congr 1
  omega

/-- No driver has two turns in `n` consecutive ones. -/
theorem nodup_roundRobin (n d : Nat) : (roundRobin n d n).Nodup := by
  refine List.Nodup.map_on (fun i hi j hj hij => ?_) List.nodup_range
  exact (Nat.ModEq.add_left_cancel' _ hij).eq_of_lt_of_lt (List.mem_range.1 hi) (List.mem_range.1 hj)

/-- `n` consecutive turns are one of each driver: they are `n` different ones (40_transfer_scheduler.md R117). -/
theorem roundRobin_perm_range {n : Nat} (hn : 0 < n) (d : Nat) : (roundRobin n d n).Perm (List.range n) := by
  refine ((nodup_roundRobin n d).subperm fun e he => ?_).perm_of_length_le (by simp)
  obtain ⟨j, -, rfl⟩ := List.mem_map.1 he
  exact List.mem_range.2 (Nat.mod_lt _ hn)

theorem count_roundRobin {n e : Nat} (he : e < n) (d : Nat) : (roundRobin n d n).count e = 1 := by
  rw [(roundRobin_perm_range ((Nat.zero_le e).trans_lt he) d).count_eq]
  exact List.count_eq_one_of_mem List.nodup_range (List.mem_range.2 he)

/-- `k` full rounds serve each driver `k` times. -/
theorem count_roundRobin_mul {n e : Nat} (he : e < n) (d k : Nat) : (roundRobin n d (k * n)).count e = k := by
  induction k with
  | zero => simp [roundRobin_zero]
  | succ k ih => rw [Nat.succ_mul, roundRobin_add, List.count_append, ih, count_roundRobin he]

/-- Any `n` consecutive turns of a longer round are one of each driver. -/
theorem count_take_drop_roundRobin {n e i k : Nat} (he : e < n) (hik : i + n ≤ k) (d : Nat) :
    (((roundRobin n d k).drop i).take n).count e = 1 := by
  obtain ⟨m, rfl⟩ := Nat.exists_eq_add_of_le hik
  rw [Nat.add_assoc, roundRobin_add, List.drop_left' (length_roundRobin n d i), roundRobin_add,
    List.take_left' (length_roundRobin n _ n)]
  exact count_roundRobin he _

/-! ### Any run without a halt -/

/-- The first step and the rest of a run: each records its part of the trace, and no halt in the whole is none in either. -/
theorem run_split {s u t : State} {k : Nat} (hstep : step s = .next u)
    (hrun : Host.Core.run Sys2Proof.core k u = .next t) (hno : s.NoHaltSince t) :
    s.traceSince t = s.traceSince u ++ u.traceSince t ∧ s.NoHaltSince u ∧ u.NoHaltSince t := by
  have htrace := State.traceSince_trans (step_trace_prefix hstep) (run_trace_prefix hrun)
  unfold State.NoHaltSince at hno ⊢
  rw [htrace] at hno
  exact ⟨htrace, fun e he => hno e (List.mem_append_left _ he), fun e he => hno e (List.mem_append_right _ he)⟩

/-- A halt is recorded as one. -/
theorem not_noHaltSince_of_halt {s t : State} {d : Nat} (h : t.trace = s.trace ++ [.halt d]) : ¬ s.NoHaltSince t := by
  intro hno
  have hmem : BusEvent.halt d ∈ s.traceSince t := by rw [State.traceSince_append h]; exact List.mem_singleton_self _
  exact absurd (hno _ hmem) nofun

/-- Over a run without a halt the STARTs follow the round, and `cur` is the last one served (40_transfer_scheduler.md R114). -/
theorem run_roundRobin {k : Nat} {s t : State} {d : Nat} (h : s.Inv) (hreset : s.NoResetToCome) (hc : s.cur = some d)
    (hrun : Host.Core.run Sys2Proof.core k s = .next t) (hno : s.NoHaltSince t) :
    ∃ m, startTargets (s.traceSince t) = roundRobin s.n d m ∧ t.cur = some ((d + m) % s.n) := by
  induction k generalizing s d with
  | zero =>
    cases hrun
    refine ⟨0, ?_, ?_⟩
    · rw [State.traceSince_of_silent rfl]
      rfl
    · rw [hc, Nat.add_zero, Nat.mod_eq_of_lt (h.cur_lt d hc)]
  | succ k ih =>
    obtain ⟨u, hstep, hrest⟩ := run_succ_next hrun
    obtain ⟨htrace, hnoStep, hnoRest⟩ := run_split hstep hrest hno
    have hinv := everyStepKeepsTheInvariants s u h hstep
    rw [htrace, startTargets_append]
    cases step_inFlight h hreset hc hstep with
    | silent hcur hn hsilent =>
      obtain ⟨m, hstarts, hlast⟩ := ih hinv (hreset.step hstep) hcur hrest hnoRest
      refine ⟨m, ?_, hn ▸ hlast⟩
      rw [State.traceSince_of_silent hsilent, hstarts, hn]
      rfl
    | served hs =>
      obtain ⟨m, hstarts, hlast⟩ := ih hinv (hreset.step hstep) hs.cur hrest hnoRest
      refine ⟨m + 1, ?_, ?_⟩
      · rw [hs.startTargets_traceSince, hstarts, hs.n, roundRobin_succ]
        rfl
      · rw [hlast, hs.n, next_add_mod]
    | halted htr => exact absurd hnoStep (not_noHaltSince_of_halt htr)

/-- Settles O53: the STARTs are those of the round, whose length is their number. -/
theorem serviceOrderIsRoundRobin : Obligations.ServiceOrderIsRoundRobin := by
  intro k s t d hinv hreset hc hrun hno
  obtain ⟨m, hstarts, hcur⟩ := run_roundRobin hinv hreset hc hrun hno
  rw [hstarts, length_roundRobin]
  exact ⟨rfl, fun i e hle he => count_take_drop_roundRobin he hle d, hcur⟩

/-! ### A pending slot under any commands -/

/-- One step of the wait of slot `sl` of driver `e` (40_transfer_scheduler.md R118): it is sent, or it is still pending and the
STARTs of `e` in this step are taken off what it has to wait for, if no slot below it was marked. -/
theorem step_turn {s t : State} {d e : Nat} {sl : Slot} (h : s.Inv) (hreset : s.NoResetToCome) (hc : s.cur = some d)
    (he : e < s.n) (hstep : step s = .next t) (hno : s.NoHaltSince t)
    (hlow : ∀ u : Slot, u.index < sl.index → Pending.isMarked (s.driver e).pend u = false →
      Pending.isMarked (t.driver e).pend u = false)
    (hm : Pending.isMarked (s.driver e).pend sl = true) :
    (∃ word, .tx e (.slot sl) word ∈ s.traceSince t)
      ∨ (Pending.isMarked (t.driver e).pend sl = true
        ∧ pendingUpTo (t.driver e).pend sl + (startTargets (s.traceSince t)).count e ≤ pendingUpTo (s.driver e).pend sl) := by
  cases step_inFlight h hreset hc hstep with
  | silent hcur hn hsilent =>
    by_cases hm' : Pending.isMarked (t.driver e).pend sl = true
    · refine .inr ⟨hm', ?_⟩
      rw [State.traceSince_of_silent hsilent]
      refine pendingUpTo_mono fun u hle hu => ?_
      rcases hle.lt_or_eq with hlt | heq
      · by_contra hs
        exact absurd ((hlow u hlt (Bool.eq_false_of_not_eq_true hs)).symm.trans hu) nofun
      · rwa [Slot.index_inj heq]
    · exact .inl ⟨_, pendingClearedOnlyByTransmission s t e sl h hreset he hstep hm (Bool.eq_false_of_not_eq_true hm')⟩
  | served hs => exact (hs.turn hm).imp (fun ⟨hsent, _⟩ => ⟨_, hsent⟩) fun ⟨hkept, hle⟩ => ⟨hkept, hle.le⟩
  | halted htr => exact absurd hno (not_noHaltSince_of_halt htr)

/-- A step that does not stop the chain leaves some transfer in flight, and the driver count. -/
theorem step_cur_of_noHalt {s t : State} {d : Nat} (h : s.Inv) (hreset : s.NoResetToCome) (hc : s.cur = some d)
    (hstep : step s = .next t) (hno : s.NoHaltSince t) : (∃ e, t.cur = some e) ∧ t.n = s.n := by
  cases step_inFlight h hreset hc hstep with
  | silent hcur hn => exact ⟨⟨_, hcur⟩, hn⟩
  | served hs => exact ⟨⟨_, hs.cur⟩, hs.n⟩
  | halted htr => exact absurd hno (not_noHaltSince_of_halt htr)

/-- Settles O56: by induction on the run, what the slot has to wait for falls by one with every START of its driver, and the slot
waits for at least its own. -/
theorem pendingSlotSentByItsTurn : Obligations.PendingSlotSentByItsTurn := by
  intro m s t e sl hinv hreset hcur he hm hrun hno hlow hcount
  obtain ⟨d, hc⟩ := Option.ne_none_iff_exists'.1 hcur
  clear hcur
  induction m generalizing s d with
  | zero =>
    cases hrun
    rw [State.traceSince_of_silent rfl] at hcount
    exact absurd hcount (pendingUpTo_pos hm).not_ge
  | succ m ih =>
    obtain ⟨b, hstep, hrest⟩ := run_succ_next hrun
    obtain ⟨htrace, hnoStep, hnoRest⟩ := run_split hstep hrest hno
    have hlowStep := fun u => hlow 0 s b u m.succ_pos rfl (by rw [run_succ_of_next 0 hstep, run_zero])
    rw [htrace]
    rcases step_turn hinv hreset hc he hstep hnoStep hlowStep hm with ⟨word, hsent⟩ | ⟨hm', hle⟩
    · exact ⟨word, List.mem_append_left _ hsent⟩
    · obtain ⟨⟨d', hc'⟩, hn⟩ := step_cur_of_noHalt hinv hreset hc hstep hnoStep
      rw [htrace, startTargets_append, List.count_append] at hcount
      obtain ⟨word, hsent⟩ := ih b (everyStepKeepsTheInvariants s b hinv hstep) (hreset.step hstep) (hn ▸ he) hm' hrest hnoRest
        (fun j a c u hj ha hc => hlow (j + 1) a c u (Nat.succ_lt_succ hj) (by rw [run_succ_of_next j hstep, ha])
          (by rw [run_succ_of_next (j + 1) hstep, hc]))
        (by omega) d' hc'
      exact ⟨word, List.mem_append_right _ hsent⟩

end Sys2Proof.Machine
end

section
/-! Completions in a row while powered: none is refused, each serves the next driver, and a pending slot is sent within its
bound (40_transfer_scheduler.md R113, R117, R118). -/

namespace Sys2Proof

/-- An event word decodes to the COMPLETE it was written for, the received word cut to `W` bits (30_encoding.md R84). -/
theorem decode_eventWord (c : Cfg) (rx : Word) (iv : BitVec 32) :
    decode c (eventWord rx iv) = .ok (.complete (rx &&& c.wordMask) iv) := by
  refine decode_eq_ok_of_rows ?_ ?_
  · simp [map_opcode_opcodeMap]
  · simp [opcodeMap]

end Sys2Proof

namespace Sys2Proof.Machine

theorem completions_cons (ev : Word × BitVec 32) (events : List (Word × BitVec 32)) (rest : List Stimulus) :
    completions (ev :: events) ++ rest = .word (eventWord ev.1 ev.2) :: (completions events ++ rest) := rfl

/-- A completion at the head of the inputs is taken while powered, and serves the next driver (40_transfer_scheduler.md R113). -/
theorem step_of_completion {s : State} {d : Nat} {rx : Word} {iv : BitVec 32} {rest : List Stimulus} (h : s.Inv)
    (hp : s.powered = true) (hc : s.cur = some d) (hin : s.inputs = .word (eventWord rx iv) :: rest) :
    ∃ t, step s = .next t ∧ t.inputs = rest ∧ State.ServesNext d s t := by
  have hirq : s.irqEn = true := h.irq_iff.2 (by simp [hc])
  have hserves := servesNext_advanceChain (s := { s with inputs := rest }) ((h.next_lt hc).trans_le h.shaped)
    (rx &&& s.cfg.wordMask) iv
  refine ⟨_, ?_, rfl, ⟨hserves.cur, hserves.n, hserves.powered, hserves.trace, hserves.pend, hserves.reg⟩⟩
  calc step s = processStimulus (.word (eventWord rx iv)) { s with inputs := rest } := step_of_cons hin
    _ = exec (.complete (rx &&& s.cfg.wordMask) iv) { s with inputs := rest } :=
        processStimulus_word_of_decode (decode_eventWord _ _ _)
    _ = _ := exec_complete_powered _ iv hc hirq hp

/-- Completions in a row while powered: what the whole run leaves (40_transfer_scheduler.md R113, R117). -/
structure State.ServesRound (d k : Nat) (rest : List Stimulus) (s t : State) : Prop where
  run : Host.Core.run Sys2Proof.core k s = .next t
  inv : t.Inv
  inputs : t.inputs = rest
  powered : t.powered = true
  cur : t.cur = some ((d + k) % s.n)
  starts : startTargets (s.traceSince t) = roundRobin s.n d k
  keeps_unmarked : ∀ e sl, Pending.isMarked (s.driver e).pend sl = false → Pending.isMarked (t.driver e).pend sl = false
  /-- a pending slot is sent with the value it holds, or the STARTs of its driver are taken off what it has to wait for -/
  turn : ∀ e sl, Pending.isMarked (s.driver e).pend sl = true →
    (.tx e (.slot sl) ((s.driver e).reg.get sl) ∈ s.traceSince t ∧ Pending.isMarked (t.driver e).pend sl = false)
      ∨ (Pending.isMarked (t.driver e).pend sl = true
        ∧ pendingUpTo (t.driver e).pend sl + (roundRobin s.n d k).count e = pendingUpTo (s.driver e).pend sl)

namespace State.ServesRound

variable {d k : Nat} {rest : List Stimulus} {s b t : State}

theorem refl (h : s.Inv) (hp : s.powered = true) (hc : s.cur = some d)
    (hin : s.inputs = rest) : State.ServesRound d 0 rest s s where
  run := rfl
  inv := h
  inputs := hin
  powered := hp
  cur := by rw [hc, Nat.add_zero, Nat.mod_eq_of_lt (h.cur_lt d hc)]
  starts := by rw [State.traceSince_of_silent rfl]; rfl
  keeps_unmarked := fun _ _ hm => hm
  turn := fun _ _ hm => .inr ⟨hm, rfl⟩

/-- One driver served and then a round from there. -/
theorem head (hstep : step s = .next b) (hs : State.ServesNext d s b)
    (h : State.ServesRound ((d + 1) % s.n) k rest b t) : State.ServesRound d (k + 1) rest s t := by
  have htrace := State.traceSince_trans hs.trace_prefix (run_trace_prefix h.run)
  refine ⟨?run, h.inv, h.inputs, h.powered, ?cur, ?starts, ?keeps_unmarked, ?turn⟩
  case run => rw [run_succ_of_next k hstep, h.run]
  case cur => rw [h.cur, hs.n, next_add_mod]
  case starts =>
    rw [htrace, startTargets_append, hs.startTargets_traceSince, h.starts, hs.n, roundRobin_succ]
    rfl
  case keeps_unmarked => exact fun e sl hm => h.keeps_unmarked e sl (hs.keeps_unmarked hm)
  case turn =>
    intro e sl hm
    rw [htrace]
    rcases hs.turn hm with ⟨hsent, hclear⟩ | ⟨hm', hwait⟩
    · exact .inl ⟨List.mem_append_left _ hsent, h.keeps_unmarked e sl hclear⟩
    · rw [hs.startTargets_traceSince] at hwait
      refine (h.turn e sl hm').imp (fun ⟨hsent, hclear⟩ => ⟨List.mem_append_right _ (hs.reg e ▸ hsent), hclear⟩) ?_
      rintro ⟨hm'', hwait'⟩
      refine ⟨hm'', ?_⟩
      rw [hs.n] at hwait'
      rw [roundRobin_succ, ← List.singleton_append, List.count_append]
      omega

end State.ServesRound

/-- By induction on the completions: each finds the chain running and powered. -/
theorem exists_servesRound {events : List (Word × BitVec 32)} {s : State} {d : Nat} {rest : List Stimulus} (h : s.Inv)
    (hp : s.powered = true) (hc : s.cur = some d) (hin : s.inputs = completions events ++ rest) :
    ∃ t, State.ServesRound d events.length rest s t := by
  induction events generalizing s d with
  | nil => exact ⟨s, .refl h hp hc hin⟩
  | cons ev events ih =>
    obtain ⟨b, hstep, hrest, hs⟩ := step_of_completion h hp hc (hin.trans (completions_cons ev events rest))
    obtain ⟨t, ht⟩ := ih (everyStepKeepsTheInvariants s b h hstep) (hs.powered.trans hp) hs.cur hrest
    exact ⟨t, ht.head hstep hs⟩

/-- Settles O54: a round of `k` completions leaves the chain running. -/
theorem poweredChainNeverStops : Obligations.PoweredChainNeverStops := by
  intro events s d rest hinv hp hc hin
  obtain ⟨t, ht⟩ := exists_servesRound hinv hp hc hin
  exact ⟨t, ht.run, ht.inputs, ht.powered, ht.inv.irq_iff.2 (by simp [ht.cur]), ht.cur, ht.starts⟩

/-- Settles O55: `k` full rounds have `k` STARTs of the driver, so a slot still pending after them would have nothing left to
wait for, not even its own. -/
theorem pendingSlotSentWithinItsBound : Obligations.PendingSlotSentWithinItsBound := by
  intro events s d e sl rest hinv hp hc he hm hin hlen
  obtain ⟨t, ht⟩ := exists_servesRound hinv hp hc hin
  have hturns : (roundRobin s.n d events.length).count e = pendingUpTo (s.driver e).pend sl := by
    rw [hlen, count_roundRobin_mul he]
  rcases ht.turn e sl hm with ⟨hsent, hclear⟩ | ⟨hm', hwait⟩
  · exact ⟨t, ht.run, hsent, hclear⟩
  · have hpos := pendingUpTo_pos hm'
    omega

end Sys2Proof.Machine
end

section
/-! The noise gate, the live view and the item precedence, and the reads of the status words
(41_status_accumulator.md R131, R133, R134, R138). -/

namespace Sys2Proof

/-! ### The gate, the stall bit, the flags -/

theorem StatusFlag.mem_all (f : StatusFlag) : f ∈ StatusFlag.all := by
  cases f <;> decide

/-- The read suppresses the stall bit of a disabled driver as the filter does that of a reading the gate refuses
(41_status_accumulator.md R132, R133). -/
theorem Cfg.liveView_eq_filterStatus (c : Cfg) (en : Bool) (live : Word) :
    c.liveView en live = c.filterStatus en live := rfl

/-- The live view is the stored word, but for the stall bit of a disabled driver (41_status_accumulator.md R133). -/
theorem Cfg.Valid.liveView_cases {c : Cfg} (h : c.Valid) (en : Bool) (live : Word) :
    (en = true → c.liveView en live = live)
      ∧ (en = false → c.statusLayout.sg.get (c.liveView en live) = 0
          ∧ c.statusLayout.sg.AgreesOutside (c.liveView en live) live) := by
  rw [c.liveView_eq_filterStatus]
  cases en with
  | true => exact ⟨fun _ => rfl, nofun⟩
  | false => exact ⟨nofun, fun _ => ⟨h.sg_clearStall live, c.filterStatus_agreesOutside false live⟩⟩

/-- The live view has `W` bits when the stored word has. -/
theorem Cfg.Valid.liveView_fits {c : Cfg} (h : c.Valid) (en : Bool) {live : Word} (hl : c.FitsWord live) :
    c.FitsWord (c.liveView en live) := by
  rw [c.liveView_eq_filterStatus]
  exact h.filterStatus_fits en hl

end Sys2Proof

namespace Sys2Proof.Machine

/-- Settles O35: each corner case is the gate on numbers, at equal numbers or at maximum 0. -/
theorem noiseGateJudgesTheInterval : Obligations.NoiseGateJudgesTheInterval := by
  intro iv m
  refine ⟨stallGate_iff_toNat iv m, fun hm => (stallGate_iff_toNat m m).2 ⟨hm, le_rfl⟩, ?_⟩
  rw [← Bool.not_eq_true, stallGate_iff_toNat]
  exact fun ⟨hmoves, hle⟩ => hmoves (Nat.le_zero.1 hle)

/-- Settles O43: the items are the flags that pass a test, and the test says this of each. -/
theorem standstillHidesOnlyBenignItems : Obligations.StandstillHidesOnlyBenignItems := by
  intro c v f
  rw [Cfg.statusItems, List.mem_filter, and_iff_right f.mem_all, Bool.and_eq_true]
  cases c.flagSet .stst v <;> simp [or_comm]

/-! ### The reads -/

/-- Settles O36: the read answers the live view. -/
theorem readLiveStatusSuppressesTheStallBit : Obligations.ReadLiveStatusSuppressesTheStallBit := by
  intro s d hv hd
  have hview := hv.liveView_cases (s.driver d).en (s.driver d).live
  refine ⟨s.cfg.liveView (s.driver d).en (s.driver d).live, ?_, hview⟩
  rw [exec_readLiveStatus, indexed_of_lt _ hd]
  rfl

/-- Settles O37: the mask is ANDed into `acc` after it is read. -/
theorem readAccumulatedStatusRetainsTheMask : Obligations.ReadAccumulatedStatusRetainsTheMask := by
  intro s d mask hshaped hd
  refine ⟨_, (s.driver d).acc &&& mask, (exec_readAccumulatedStatus d mask s).trans (indexed_of_lt _ hd),
    State.respond_resp .., s.onlyRecordChanged_update d _ _ _, ?_, fun b => ?_⟩
  · rw [State.driver_respond, State.driver_updateDriver_same _ _ (hd.trans_le hshaped)]
  · rw [BitVec.getLsbD_and, Bool.and_eq_true]

end Sys2Proof.Machine
end

section
/-! The diagnostic reports as numbers: the parts of a value, each below its width, stand side by side in it
(30_encoding.md R87, 41_status_accumulator.md R136, R137). -/

namespace Sys2Proof

/-! ### Parts of a value -/

/-- A part put above the bits a value has is added to it, and the sum ends where the part ends. -/
theorem toNat_or_shiftLeft {v x : BitVec 64} {n k : Nat} (hv : v.toNat < 2 ^ n) (hx : x.toNat < 2 ^ k) (hk : n + k ≤ 64) :
    (v ||| x <<< n).toNat = v.toNat + 2 ^ n * x.toNat ∧ (v ||| x <<< n).toNat < 2 ^ (n + k) := by
  have hshift : x.toNat <<< n = 2 ^ n * x.toNat := by rw [Nat.shiftLeft_eq, Nat.mul_comm]
  have hpart : 2 ^ n * x.toNat < 2 ^ (n + k) := by
    rw [Nat.pow_add]
    exact Nat.mul_lt_mul_of_pos_left hx (Nat.two_pow_pos n)
  have hfits : 2 ^ n * x.toNat < 2 ^ 64 := hpart.trans_le (Nat.pow_le_pow_right (by decide) hk)
  have hor : (v ||| x <<< n).toNat = v.toNat ||| 2 ^ n * x.toNat := by
    rw [BitVec.toNat_or, BitVec.toNat_shiftLeft, hshift, Nat.mod_eq_of_lt hfits]
  refine ⟨?_, ?_⟩
  · rw [hor, Nat.lor_comm, ← Nat.two_pow_add_eq_or_of_lt hv, Nat.add_comm]
  · rw [hor]
    exact Nat.or_lt_two_pow (hv.trans_le (Nat.pow_le_pow_right (by decide) (Nat.le_add_right n k))) hpart

theorem toNat_word_setWidth (w : Word) : (w.setWidth 64).toNat = w.toNat :=
  BitVec.toNat_setWidth_of_le (by decide)

/-- A word of `W` bits is a number below `2^W`. -/
theorem Cfg.FitsWord.toNat_lt {c : Cfg} {v : Word} (h : c.FitsWord v) : v.toNat < 2 ^ c.wordBits := by
  refine Nat.lt_pow_two_of_testBit _ fun i hi => ?_
  have hmask : c.wordMask.getLsbD i = false := by
    rw [Cfg.getLsbD_wordMask]
    simp [Nat.not_lt.2 hi]
  rw [BitVec.testBit_toNat, ← and_eq_of_outside h, BitVec.getLsbD_and, hmask, Bool.and_false]

/-- The lower end of the empty window is held whole (10_state.md R29). -/
theorem Cfg.Valid.toNat_emptyMinLoad {c : Cfg} (h : c.Valid) : c.emptyMinLoad.toNat = 2 ^ c.loadBits - 1 := by
  have hbits : c.loadBits ≤ maxWordBits := by
    have := h.loadBits_add_le
    have := h.wordBits_le
    omega
  have hle : 2 ^ c.loadBits ≤ 2 ^ maxWordBits := Nat.pow_le_pow_right (by decide) hbits
  have hpos : 0 < 2 ^ c.loadBits := Nat.two_pow_pos _
  rw [Cfg.emptyMinLoad, BitVec.toNat_ofNat]
  exact Nat.mod_eq_of_lt (by omega)

/-- `SGT` has seven bits (00_scope.md R5). -/
theorem Cfg.Valid.sgt_get_lt {c : Cfg} (h : c.Valid) (w : Word) : c.slotLayout.sgt.get w < 2 ^ 7 := by
  have hlt := Field.get_lt _ w h.slotLayout.sgt_inside.fits
  rwa [h.slotLayout.sgt_width] at hlt

/-- `SFILT` has one bit (30_encoding.md R92). -/
theorem Cfg.Valid.sfilt_get_lt {c : Cfg} (h : c.Valid) (w : Word) : c.slotLayout.sfilt.get w < 2 ^ 1 := by
  have hlt := Field.get_lt _ w h.slotLayout.sfilt_inside.fits
  rwa [h.slotLayout.sfilt_width] at hlt

/-! ### The two values -/

/-- The status report, part by part from bit 0 (30_encoding.md R87). -/
theorem Cfg.Valid.toNat_statusReportValue {c : Cfg} (h : c.Valid) {view : Word} {lo hi : Load}
    (hview : view.toNat < 2 ^ c.wordBits) (hlo : lo.toNat < 2 ^ c.loadBits) (hhi : hi.toNat < 2 ^ c.loadBits) :
    (c.statusReportValue view lo hi).toNat = view.toNat + 2 ^ c.wordBits * lo.toNat
      + 2 ^ (c.wordBits + c.loadBits) * hi.toNat
      + 2 ^ (c.wordBits + 2 * c.loadBits) * (if lo.toNat ≤ hi.toNat then 1 else 0) := by
  have hload := h.loadBits_add_le
  have hword : c.wordBits ≤ 24 := h.wordBits_le
  rw [← toNat_word_setWidth] at hview hlo hhi
  have hvalid : ((BitVec.ofBool (decide (lo ≤ hi))).setWidth 64).toNat = if lo.toNat ≤ hi.toNat then 1 else 0 := by
    rw [BitVec.toNat_setWidth_of_le (by decide), BitVec.toNat_ofBool]
    by_cases hle : lo.toNat ≤ hi.toNat <;> simp [BitVec.le_def, hle]
  have hbit : ((BitVec.ofBool (decide (lo ≤ hi))).setWidth 64).toNat < 2 ^ 1 := by
    rw [hvalid]
    split <;> decide
  obtain ⟨hsum₁, hlt₁⟩ := toNat_or_shiftLeft hview hlo (by omega)
  obtain ⟨hsum₂, hlt₂⟩ := toNat_or_shiftLeft hlt₁ hhi (by omega)
  rw [Nat.add_assoc, ← Nat.two_mul] at hlt₂
  obtain ⟨hsum₃, -⟩ := toNat_or_shiftLeft hlt₂ hbit (by omega)
  rw [Cfg.statusReportValue, hsum₃, hsum₂, hsum₁, hvalid]
  simp only [toNat_word_setWidth]

/-- The stall configuration, part by part from bit 0 (30_encoding.md R87). -/
theorem Cfg.Valid.toNat_stallConfigValue {c : Cfg} (h : c.Valid) (stallGuard smartEnable : Word) (maxIv : BitVec 32) :
    (c.stallConfigValue stallGuard smartEnable maxIv).toNat = c.slotLayout.sgt.get stallGuard
      + 2 ^ 7 * c.slotLayout.sfilt.get stallGuard + 2 ^ 8 * (smartEnable &&& c.payloadMask.smartEnable).toNat
      + 2 ^ 32 * maxIv.toNat := by
  have hsgtLt := h.sgt_get_lt stallGuard
  have hsfiltLt := h.sfilt_get_lt stallGuard
  have hsgt : (BitVec.ofNat 64 (c.slotLayout.sgt.get stallGuard)).toNat = c.slotLayout.sgt.get stallGuard := by
    rw [BitVec.toNat_ofNat]
    omega
  have hsfilt : (BitVec.ofNat 64 (c.slotLayout.sfilt.get stallGuard)).toNat = c.slotLayout.sfilt.get stallGuard := by
    rw [BitVec.toNat_ofNat]
    omega
  have hiv : (maxIv.setWidth 64).toNat = maxIv.toNat := BitVec.toNat_setWidth_of_le (by decide)
  have hpayload : ((smartEnable &&& c.payloadMask.smartEnable).setWidth 64).toNat < 2 ^ 24 := by
    rw [toNat_word_setWidth]
    exact BitVec.isLt _
  obtain ⟨hsum₁, hlt₁⟩ := toNat_or_shiftLeft (hsgt.trans_lt hsgtLt) (hsfilt.trans_lt hsfiltLt) (by decide)
  obtain ⟨hsum₂, hlt₂⟩ := toNat_or_shiftLeft hlt₁ hpayload (by decide)
  obtain ⟨hsum₃, -⟩ := toNat_or_shiftLeft hlt₂ (hiv.trans_lt maxIv.isLt) (by decide)
  rw [Cfg.stallConfigValue, hsum₃, hsum₂, hsum₁, hsgt, hsfilt, toNat_word_setWidth, hiv]

end Sys2Proof

namespace Sys2Proof.Machine

/-- Settles O38: in a record with the invariants every part of the report is below its width. -/
theorem appendStatusReportResult : Obligations.AppendStatusReportResult := by
  intro s d hinv hd
  have hv := hinv.cfg_valid
  have hr := hinv.drivers d hd
  obtain ⟨henabled, hdisabled⟩ := hv.liveView_cases (s.driver d).en (s.driver d).live
  have hview := (hv.liveView_fits (s.driver d).en hr.live_fits).toNat_lt
  refine ⟨_, (s.driver d).statusReport s.cfg, s.cfg.emptyMinLoad, s.cfg.liveView (s.driver d).en (s.driver d).live,
    (exec_appendStatusReport d s).trans (indexed_of_lt _ hd), State.respond_resp .., s.onlyRecordChanged_update d _ _ _, ?_,
    hv.toNat_emptyMinLoad, henabled, hdisabled, hview, hr.minLoad_lt, hr.maxLoad_lt,
    hv.toNat_statusReportValue hview hr.minLoad_lt hr.maxLoad_lt⟩
  rw [State.driver_respond, State.driver_updateDriver_same _ _ (hd.trans_le hinv.shaped)]
  rfl

/-- Settles O39: each part is read back from the value as a number. -/
theorem appendStallConfigResult : Obligations.AppendStallConfigResult := by
  intro s d hv hd
  have hsgt := hv.sgt_get_lt (s.driver d).reg.stallGuardConfig
  have hsfilt := hv.sfilt_get_lt (s.driver d).reg.stallGuardConfig
  have hpayload : ((s.driver d).reg.smartEnable &&& s.cfg.payloadMask.smartEnable).toNat < 2 ^ 24 := BitVec.isLt _
  have hiv := (s.driver d).maxIv.isLt
  have hval := hv.toNat_stallConfigValue (s.driver d).reg.stallGuardConfig (s.driver d).reg.smartEnable (s.driver d).maxIv
  refine ⟨_, (exec_appendStallConfig d s).trans (indexed_of_lt _ hd), ?_, ?_, BitVec.eq_of_toNat_eq ?_,
    BitVec.eq_of_toNat_eq ?_⟩
  all_goals rw [BitVec.extractLsb'_toNat, hval, Nat.shiftRight_eq_div_pow]
  · omega
  · omega
  · have hwidth : 2 ^ maxWordBits = 2 ^ 24 := rfl
    rw [hwidth]
    omega
  · omega

end Sys2Proof.Machine
end

section
/-! The status words after an operation: which operations can take a bit from `acc`, and what a COMPLETE does with the word
received (41_status_accumulator.md R132, R135, R139). -/

namespace Sys2Proof

/-- The filtered word has the stall bit of the word received, and only if the gate passed (41_status_accumulator.md R132). -/
theorem Cfg.Valid.sg_filterStatus {c : Cfg} (h : c.Valid) (passes : Bool) (rx : Word) :
    c.statusLayout.sg.get (c.filterStatus passes rx) = if passes then c.statusLayout.sg.get rx else 0 := by
  cases passes with
  | true => rfl
  | false => exact h.sg_clearStall rx

end Sys2Proof

namespace Sys2Proof.Machine

/-! ### What leaves the accumulated words alone -/

theorem State.acc_updateDriver (s : State) (d e : Nat) {f : Driver → Driver} (hf : ∀ r, (f r).acc = r.acc) :
    ((s.updateDriver e f).driver d).acc = (s.driver d).acc := by
  rw [State.driver_updateDriver]
  split
  · next h => rw [hf, h.1]
  · rfl

theorem State.acc_configureSlot (s : State) (d e : Nat) (sl : Slot) {f : Driver → Driver} (hf : ∀ r, (f r).acc = r.acc) :
    ((s.configureSlot e sl f).driver d).acc = (s.driver d).acc :=
  s.acc_updateDriver d e hf

/-- The accumulated words are a column of the records; a driver without a record has the blank one's. -/
theorem State.acc_eq_getD (s : State) (d : Nat) : (s.driver d).acc = (s.drivers.map Driver.acc).getD d 0 :=
  (List.getD_map s.drivers Driver.blank Driver.acc).symm

/-- A full resync, whether or not every driver in range has a record. -/
theorem State.acc_updateFirst (s : State) (d n : Nat) {f : Driver → Driver} (hf : ∀ r, (f r).acc = r.acc) :
    ((s.updateFirst n f).driver d).acc = (s.driver d).acc := by
  have hcol : Driver.acc ∘ f = Driver.acc := funext hf
  rw [State.acc_eq_getD, State.acc_eq_getD, State.updateFirst_drivers, List.map_append, List.map_map, hcol, ← List.map_append,
    List.take_append_drop]

theorem acc_startTransfer (s : State) (d e : Nat) : ((startTransfer e s).driver d).acc = (s.driver d).acc := by
  rw [driver_startTransfer]
  split
  · next h => rw [Driver.nextTransfer_record, h.1]
  · rfl

theorem State.acc_powerRestored (s : State) (d : Nat) : (s.powerRestored.driver d).acc = (s.driver d).acc := by
  have hresync : ∀ b, ((s.resynced b).driver d).acc = (s.driver d).acc := fun _ => s.acc_updateFirst d s.n fun _ => rfl
  rcases s.powerRestored_eq with ⟨-, he⟩ | ⟨-, he⟩ <;> rw [he]
  · exact (acc_startTransfer _ d 0).trans (hresync true)
  · exact hresync s.irqEn

/-- An indexed command writes `acc` as its body does. -/
theorem acc_eq_of_indexed {i : Instr} {d e : Nat} {k : State → State} {s t : State} (heq : exec i s = indexed e s k)
    (he : exec i s = .next t) (hk : ((k s).driver d).acc = (s.driver d).acc) : (t.driver d).acc = (s.driver d).acc := by
  rcases indexed_cases (heq.symm.trans he) with ⟨-, rfl⟩ | ⟨-, rfl⟩
  · exact hk
  · rfl

/-- The word of driver `d` is written by COMPLETE and by the three operations that can clear bits of it, no other
(10_state.md R28). -/
theorem exec_acc_eq {i : Instr} {s t : State} {d : Nat} (he : exec i s = .next t) (hinit : ∀ count, i ≠ .init count)
    (hread : ∀ mask, i ≠ .readAccumulatedStatus d mask) (henable : i ≠ .enable d true)
    (hcomplete : ∀ rx iv, i ≠ .complete rx iv) : (t.driver d).acc = (s.driver d).acc := by
  cases i with
  | init count => exact absurd rfl (hinit count)
  | complete rx iv => exact absurd rfl (hcomplete rx iv)
  | spin p =>
    rcases execSpin_cases he with ⟨-, -, rfl⟩ | ⟨-, -, rfl⟩ | ⟨-, rfl⟩
    · exact s.acc_powerRestored d
    · rfl
    · rfl
  | forceOff => cases he; rfl
  | readAccumulatedStatus e mask =>
    have hd : d ≠ e := fun h => hread mask (h ▸ rfl)
    refine acc_eq_of_indexed (exec_readAccumulatedStatus ..) he ?_
    rw [State.driver_respond, State.driver_updateDriver_other _ _ hd]
  | enable e on =>
    refine acc_eq_of_indexed (exec_enable ..) he ?_
    split
    · rfl
    · cases on with
      | false => exact s.acc_configureSlot d e _ fun _ => rfl
      | true =>
        have hd : d ≠ e := fun h => henable (h ▸ rfl)
        rw [State.driver_configureSlot_other _ _ _ hd]
  | setMicrostepping e shift interp =>
    refine acc_eq_of_indexed (exec_setMicrostepping ..) he ?_
    split
    · rfl
    · exact s.acc_configureSlot d e _ fun _ => rfl
  | setChopperConfig e raw =>
    refine acc_eq_of_indexed (exec_setChopperConfig ..) he ?_
    split
    · exact s.acc_configureSlot d e _ fun _ => rfl
    · rfl
  | setCurrent e current => exact acc_eq_of_indexed (exec_setCurrent ..) he (s.acc_configureSlot d e _ fun _ => rfl)
  | setStallThreshold e v => exact acc_eq_of_indexed (exec_setStallThreshold ..) he (s.acc_configureSlot d e _ fun _ => rfl)
  | setStallFilter e on => exact acc_eq_of_indexed (exec_setStallFilter ..) he (s.acc_configureSlot d e _ fun _ => rfl)
  | setCoolStepConfig e raw => exact acc_eq_of_indexed (exec_setCoolStepConfig ..) he (s.acc_configureSlot d e _ fun _ => rfl)
  | setStallMinStepsPerSecond e rate =>
    exact acc_eq_of_indexed (exec_setStallMinStepsPerSecond ..) he (s.acc_updateDriver d e fun _ => rfl)
  | appendStatusReport e => exact acc_eq_of_indexed (exec_appendStatusReport ..) he (s.acc_updateDriver d e fun _ => rfl)
  | getMicrostepping e => exact acc_eq_of_indexed (exec_getMicrostepping ..) he rfl
  | getChopperConfig e => exact acc_eq_of_indexed (exec_getChopperConfig ..) he rfl
  | isEnabled e => exact acc_eq_of_indexed (exec_isEnabled ..) he rfl
  | readLiveStatus e => exact acc_eq_of_indexed (exec_readLiveStatus ..) he rfl
  | appendStallConfig e => exact acc_eq_of_indexed (exec_appendStallConfig ..) he rfl

/-! ### COMPLETE -/

/-- The record of the driver that owned the bus, its bitmap apart (41_status_accumulator.md R132). -/
theorem driver_advanceChain_owner {s : State} {d : Nat} (hd : d < s.drivers.length) (rx : Word) (iv : BitVec 32) :
    (advanceChain d rx iv s).driver d =
      { (s.driver d).accumulate s.cfg rx iv with pend := ((advanceChain d rx iv s).driver d).pend } := by
  rw [driver_advanceChain, if_pos ⟨rfl, hd⟩]

/-- Settles O40: what the powered branch writes to `live` it also ORs into `acc`. -/
theorem liveContainedInAccumulated : Obligations.LiveContainedInAccumulated := by
  intro s t rx iv d hv hshaped hp hc hd he
  obtain ⟨e, hc', -, ⟨-, rfl⟩ | ⟨hoff, -⟩⟩ := execComplete_cases he
  · cases hc.symm.trans hc'
    rw [State.driver_noResponse, driver_advanceChain_busEnd, driver_advanceChain_owner (hd.trans_le hshaped),
      Driver.accumulate_live, Driver.accumulate_acc, hv.sg_filterStatus, ← and_assoc, ← stallGate_iff_toNat]
    refine ⟨?_, fun hsg => ?_⟩
    · rw [BitVec.not_or, BitVec.and_comm (~~~_), ← BitVec.and_assoc, BitVec.and_not_self]
      exact BitVec.zero_and
    · split at hsg
      · next hgate => exact ⟨hgate, hsg⟩
      · exact absurd rfl hsg
  · exact absurd (hp.symm.trans hoff) nofun

/-- Settles O41: of the operations left, only COMPLETE writes `acc`, and it only ORs into it. -/
theorem accumulatedBitsAreSticky : Obligations.AccumulatedBitsAreSticky := by
  intro i s t d b he hinit hread henable hbit
  by_cases hi : ∃ rx iv, i = .complete rx iv
  · obtain ⟨rx, iv, rfl⟩ := hi
    obtain ⟨e, -, -, ⟨-, rfl⟩ | ⟨-, rfl⟩⟩ := execComplete_cases he
    · rw [State.driver_noResponse, driver_advanceChain_busEnd, driver_advanceChain]
      split
      · next hd =>
        rw [Driver.accumulate_acc, BitVec.getLsbD_or, ← hd.1, hbit, Bool.true_or]
      · exact hbit
    · exact hbit
  · rw [exec_acc_eq he hinit hread henable fun rx iv h => hi ⟨rx, iv, h⟩]
    exact hbit

/-! ### Two words received, one state (41_status_accumulator.md R139) -/

/-- The bitmaps the powered branch leaves do not depend on the word received. -/
theorem pend_advanceChain_congr (s : State) (d e : Nat) (rx ry : Word) (iv : BitVec 32) :
    ((advanceChain d ry iv s).driver e).pend = ((advanceChain d rx iv s).driver e).pend := by
  rw [pend_advanceChain, pend_advanceChain]

/-- Nor do the records of the drivers that did not own the bus. -/
theorem driver_advanceChain_congr {s : State} {d e : Nat} (h : e ≠ d) (rx ry : Word) (iv : BitVec 32) :
    (advanceChain d ry iv s).driver e = (advanceChain d rx iv s).driver e := by
  rw [driver_advanceChain s d e ry, driver_advanceChain s d e rx, pend_advanceChain_congr s d e rx ry, if_neg fun hd => h hd.1,
    if_neg fun hd => h hd.1]

/-- The load window reads nothing of the word received but its load reading. -/
theorem Driver.accumulate_window_congr {c : Cfg} {rx ry : Word} (h : c.statusLayout.load.get rx = c.statusLayout.load.get ry)
    (r : Driver) (iv : BitVec 32) :
    (r.accumulate c ry iv).minLoad = (r.accumulate c rx iv).minLoad
      ∧ (r.accumulate c ry iv).maxLoad = (r.accumulate c rx iv).maxLoad := by
  have hload : c.loadOf ry = c.loadOf rx := by rw [Cfg.loadOf, Cfg.loadOf, h]
  rw [Driver.accumulate_minLoad, Driver.accumulate_maxLoad, hload]
  exact ⟨rfl, rfl⟩

/-- The record of the driver that owned the bus differs in the status words at most, and in the load window if the load
readings differ. -/
theorem driver_advanceChain_owner_congr (s : State) (d : Nat) (rx ry : Word) (iv : BitVec 32) :
    { (advanceChain d ry iv s).driver d with live := 0, acc := 0, minLoad := 0, maxLoad := 0 }
        = { (advanceChain d rx iv s).driver d with live := 0, acc := 0, minLoad := 0, maxLoad := 0 }
      ∧ (s.cfg.statusLayout.load.get rx = s.cfg.statusLayout.load.get ry →
          ((advanceChain d ry iv s).driver d).minLoad = ((advanceChain d rx iv s).driver d).minLoad
            ∧ ((advanceChain d ry iv s).driver d).maxLoad = ((advanceChain d rx iv s).driver d).maxLoad) := by
  rw [driver_advanceChain s d d ry, driver_advanceChain s d d rx, pend_advanceChain_congr s d d rx ry]
  split
  · exact ⟨rfl, fun hload => Driver.accumulate_window_congr hload (s.driver d) iv⟩
  · exact ⟨rfl, fun _ => ⟨rfl, rfl⟩⟩

/-- Settles O42: the powered branch reads the word received into the record of the driver that owned the bus and into one
trace entry, the unpowered one discards it. -/
theorem chipFaultsChangeOnlyTheStatus : Obligations.ChipFaultsChangeOnlyTheStatus := by
  intro s t u rx ry iv d hc ht hu
  obtain ⟨e, he, -, ht⟩ := execComplete_cases ht
  obtain ⟨f, hf, -, hu⟩ := execComplete_cases hu
  cases hc.symm.trans he
  cases hc.symm.trans hf
  cases hp : s.powered with
  | true =>
    obtain ⟨-, rfl⟩ := ht.resolve_right fun h => absurd (hp.symm.trans h.1) nofun
    obtain ⟨-, rfl⟩ := hu.resolve_right fun h => absurd (hp.symm.trans h.1) nofun
    refine ⟨by simp, by simp, by simp, by simp, by simp, by simp, by simp, by simp, ?ports, ?trace, ?others, ?owner⟩
    case others =>
      intro e hne
      rw [State.driver_noResponse, State.driver_noResponse, driver_advanceChain_congr hne rx ry]
    case owner =>
      rw [State.driver_noResponse, State.driver_noResponse]
      exact driver_advanceChain_owner_congr (s.busEnd d) d rx ry iv
    case ports => rw [State.noResponse_ports, State.noResponse_ports, ports_advanceChain, ports_advanceChain]
    case trace =>
      rw [State.noResponse_trace, State.noResponse_trace, trace_advanceChain, trace_advanceChain, List.map_append,
        List.map_append]
      rfl
  | false =>
    obtain ⟨-, rfl⟩ := ht.resolve_left fun h => absurd (hp.symm.trans h.1) nofun
    obtain ⟨-, rfl⟩ := hu.resolve_left fun h => absurd (hp.symm.trans h.1) nofun
    exact ⟨rfl, rfl, rfl, rfl, rfl, rfl, rfl, rfl, rfl, rfl, fun _ _ => rfl, rfl, fun _ => ⟨rfl, rfl⟩⟩

end Sys2Proof.Machine
end

section
/-! The operands of the configuration operations as numbers and as fields: clamps, codes, the chopper check, slot words
(42_config_operations.md, 30_encoding.md R85, R98). -/

namespace Sys2Proof

/-! ### Words -/

/-- Writing a field leaves every other bit (00_scope.md R11). -/
theorem Field.set_agreesOutside (f : Field) (w : Word) (v : Nat) : f.AgreesOutside (f.set w v) w :=
  f.set_and_outside w _ v (BitVec.and_not_self _)

/-- A mask has no bit outside any mask that contains it. -/
theorem and_not_or_self (m k : Word) : m &&& ~~~(m ||| k) = 0 := by
  rw [BitVec.not_or, ← BitVec.and_assoc, BitVec.and_not_self]
  exact BitVec.zero_and

/-- Writing two fields leaves every bit outside both. -/
theorem Field.set_set_agreesOutside (f g : Field) (w : Word) (u v : Nat) :
    g.set (f.set w u) v &&& ~~~(f.mask ||| g.mask) = w &&& ~~~(f.mask ||| g.mask) := by
  have hg : g.mask &&& ~~~(f.mask ||| g.mask) = 0 := by
    rw [BitVec.or_comm]
    exact and_not_or_self _ _
  rw [Field.set_and_outside g _ _ v hg, Field.set_and_outside f _ _ u (and_not_or_self _ _)]

/-- A flag holds its bit whole in a field of one bit. -/
theorem Field.get_set_bit {f : Field} (hf : f.lo + f.width ≤ maxWordBits) (hw : f.width = 1) (w : Word) (b : Bool) :
    f.get (f.set w b.toNat) = b.toNat := by
  rw [Field.get_set_same _ _ _ hf, hw]
  exact Nat.mod_eq_of_lt b.toNat_lt

/-- The chopper check is that neither of the two faults of 42_config_operations.md R153 is there. -/
theorem Cfg.chopValid_iff (c : Cfg) (x : Word) : c.chopValid x = true ↔
    c.slotLayout.toff.get x ≠ 0 ∧ ¬ (c.slotLayout.toff.get x = 1 ∧ c.slotLayout.tbl.get x = 0) := by
  simp only [Cfg.chopValid, Bool.and_eq_true, bne_iff_ne, Bool.not_eq_true', ← Bool.not_eq_true, beq_iff_eq]

namespace Cfg.Valid

variable {c : Cfg}

/-- The payload of a slot word is the operand's (30_encoding.md R85). -/
theorem slotWord_payload (h : c.Valid) (s : Slot) (raw : Word) :
    c.slotWord s raw &&& c.payloadMask.get s = raw &&& c.payloadMask.get s := by
  rw [Cfg.slotWord, BitVec.and_or_distrib_right, h.tag_payload, BitVec.and_assoc, BitVec.and_self]
  exact BitVec.zero_or

/-- The effective chopper value is the configured one, but for the off-time of a disabled driver (10_state.md R25). -/
theorem effectiveChop_cases (h : c.Valid) (en : Bool) (x : Word) :
    (en = true → c.effectiveChop en x = x)
      ∧ (en = false → c.slotLayout.toff.get (c.effectiveChop en x) = 0
          ∧ c.slotLayout.toff.AgreesOutside (c.effectiveChop en x) x) := by
  cases en with
  | true => exact ⟨fun _ => rfl, nofun⟩
  | false =>
    have hoff : c.slotLayout.toff.get (c.slotLayout.toff.set x 0) = 0 := by
      rw [Field.get_set_same _ _ _ h.slotLayout.toff_inside.fits, Nat.zero_mod]
    exact ⟨nofun, fun _ => ⟨hoff, Field.set_agreesOutside _ _ _⟩⟩

end Cfg.Valid

/-! ### Numbers -/

/-- `clamp` between bounds in order (00_scope.md R11). -/
theorem clamp_eq_max_min {v lo hi : Int} (h : lo ≤ hi) : clamp v lo hi = max lo (min v hi) := by
  unfold clamp
  split_ifs <;> omega

/-- The clamped current as a natural number (42_config_operations.md R152). -/
theorem Cfg.Valid.clampCurrent_eq {c : Cfg} (h : c.Valid) (current : Nat) :
    c.clampCurrent current = max c.minCurrent (min current c.maxCurrent) := by
  have hle := h.current_bounds
  rw [Cfg.clampCurrent, clamp_eq_max_min (by omega)]
  omega

/-- A larger current has no smaller code: the formula is linear with a slope of at least 0 (00_scope.md R5). -/
theorem Cfg.Valid.currentCode_mono {c : Cfg} (h : c.Valid) {i j : Nat} (hij : i ≤ j) :
    c.currentCode i ≤ c.currentCode j := by
  have hdiv : (0 : Int) < c.currentFormula.divisor := by exact_mod_cast h.divisor_pos
  have hscaled : (c.currentFormula.scale * i : Int) ≤ c.currentFormula.scale * j := by
    exact_mod_cast Nat.mul_le_mul_left _ hij
  exact Int.toNat_le_toNat (Int.ediv_le_ediv hdiv (by omega))

/-- `CS` holds the code of a clamped current whole: that of `MaxCurrent` fits, and no other is larger
(30_encoding.md R98 item 4). -/
theorem Cfg.Valid.currentCode_clampCurrent_lt {c : Cfg} (h : c.Valid) (current : Nat) :
    c.currentCode (c.clampCurrent current) < 2 ^ c.slotLayout.cs.width := by
  have hle : c.clampCurrent current ≤ c.maxCurrent := by
    rw [h.clampCurrent_eq]
    exact max_le h.current_bounds (min_le_right _ _)
  exact (h.currentCode_mono hle).trans_lt h.current_fits

theorem stallThresholdCode_lt (v : Int) : stallThresholdCode v < 2 ^ 7 := by
  unfold stallThresholdCode
  omega

/-- Sign extension gives back the clamped threshold: seven bits hold -64 to 63 (30_encoding.md R98 items 1 and 2). -/
theorem signedThreshold_stallThresholdCode (v : Int) :
    signedThreshold (stallThresholdCode v) = max (-64) (min v 63) := by
  have hcode : (stallThresholdCode v : Int) = max (-64) (min v 63) % ((2 ^ 7 : Nat) : Int) := by
    rw [stallThresholdCode, clamp_eq_max_min (by decide)]
    omega
  calc signedThreshold (stallThresholdCode v)
    _ = (stallThresholdCode v : Int).bmod (2 ^ 7) := BitVec.toInt_ofNat _
    _ = (max (-64) (min v 63)).bmod (2 ^ 7) := by rw [hcode, Int.emod_bmod]
    _ = max (-64) (min v 63) := Int.bmod_eq_of_le (by omega) (by omega)

/-- The step interval is held whole: it is at most `StepClockRate` (30_encoding.md R98 item 3). -/
theorem Cfg.Valid.toNat_maxInterval {c : Cfg} (h : c.Valid) (rate : Nat) :
    (c.maxInterval rate).toNat = c.stepClockRate / max rate 1 := by
  rw [Cfg.maxInterval, BitVec.toNat_ofNat]
  exact Nat.mod_eq_of_lt ((Nat.div_le_self _ _).trans_lt h.stepClockRate_lt)

theorem toNat_ofBool_setWidth (b : Bool) : ((BitVec.ofBool b).setWidth 64).toNat = b.toNat := by
  rw [BitVec.toNat_setWidth_of_le (by decide), BitVec.toNat_ofBool]

/-- The microstep setting, part by part from bit 0 (30_encoding.md R87). -/
theorem toNat_microsteppingValue (mshift : BitVec 4) (interp : Bool) :
    (microsteppingValue mshift interp).toNat = mshift.toNat + 256 * interp.toNat := by
  have hshift : (mshift.setWidth 64).toNat = mshift.toNat := BitVec.toNat_setWidth_of_le (by decide)
  have hflag := toNat_ofBool_setWidth interp
  have hlt : (mshift.setWidth 64).toNat < 2 ^ 8 := by omega
  have hbit : ((BitVec.ofBool interp).setWidth 64).toNat < 2 ^ 1 := hflag.trans_lt interp.toNat_lt
  rw [microsteppingValue, (toNat_or_shiftLeft hlt hbit (by decide)).1, hshift, hflag]
  rfl

end Sys2Proof
end

section
/-! The per-driver configuration operations: the outcome of each in range, then what its record holds
(42_config_operations.md). -/

namespace Sys2Proof.Machine

/-! ### The index check -/

/-- Settles O15: the check is the same for all fifteen and comes before their bodies. -/
theorem indexOutOfRangeFails : Obligations.IndexOutOfRangeFails := by
  intro i d s hi hd
  obtain ⟨k, hk⟩ := exec_eq_indexed hi s
  rw [hk, indexed_of_ge k hd]
  rfl

/-! ### The setters with a condition, on either side of it -/

section
variable {d : Nat} {s : State}

theorem exec_setMicrostepping_of_le {shift : Nat} (hd : d < s.n) (hs : shift ≤ maxShift) (interp : Bool) :
    exec (.setMicrostepping d shift interp) s =
      .next (s.configureSlot d .driveControl (Driver.setMicrostepping s.cfg shift interp)) := by
  rw [exec_setMicrostepping, indexed_of_lt _ hd, if_neg (Nat.not_lt.2 hs)]

theorem exec_setMicrostepping_of_gt {shift : Nat} (hd : d < s.n) (hs : maxShift < shift) (interp : Bool) :
    exec (.setMicrostepping d shift interp) s = .next s.fail := by
  rw [exec_setMicrostepping, indexed_of_lt _ hd, if_pos hs]

theorem exec_setChopperConfig_of_valid {raw : Word} (hd : d < s.n)
    (hx : s.cfg.chopValid (s.cfg.slotWord .chopperControl raw) = true) :
    exec (.setChopperConfig d raw) s =
      .next (s.configureSlot d .chopperControl (Driver.setChopper s.cfg (s.cfg.slotWord .chopperControl raw))) := by
  rw [exec_setChopperConfig, indexed_of_lt _ hd, if_pos hx]

theorem exec_setChopperConfig_of_invalid {raw : Word} (hd : d < s.n)
    (hx : ¬ s.cfg.chopValid (s.cfg.slotWord .chopperControl raw) = true) :
    exec (.setChopperConfig d raw) s = .next s.fail := by
  rw [exec_setChopperConfig, indexed_of_lt _ hd, if_neg hx]

theorem exec_enable_of_ne {on : Bool} (hd : d < s.n) (hon : (s.driver d).en ≠ on) :
    exec (.enable d on) s = .next (s.configureSlot d .chopperControl (Driver.setEnable s.cfg on)) := by
  rw [exec_enable, indexed_of_lt _ hd, if_neg hon]

theorem exec_enable_of_eq {on : Bool} (hd : d < s.n) (hon : (s.driver d).en = on) :
    exec (.enable d on) s = .next (s.respond true 0) := by
  rw [exec_enable, indexed_of_lt _ hd, if_pos hon]

end

/-- Settles O29: the command finds the state it asks for and only answers. -/
theorem enableToTheStateHeldIsNoOp : Obligations.EnableToTheStateHeldIsNoOp :=
  fun _ _ hd => exec_enable_of_eq hd rfl

/-- Settles O17: the chopper check fails on either of its two faults and passes without them; no other setter but
`SetMicrostepping` has a check. -/
theorem validationFailuresAreExactlyThree : Obligations.ValidationFailuresAreExactlyThree := by
  intro s d hd
  refine ⟨fun shift interp hs => exec_setMicrostepping_of_gt hd hs interp, fun raw hoff => ?_, fun raw hone hblank => ?_,
    fun shift interp hs => ⟨_, exec_setMicrostepping_of_le hd hs interp, rfl⟩, fun raw hoff hblank => ?_, ?_⟩
  · exact exec_setChopperConfig_of_invalid hd fun hx => ((s.cfg.chopValid_iff _).1 hx).1 hoff
  · exact exec_setChopperConfig_of_invalid hd fun hx => ((s.cfg.chopValid_iff _).1 hx).2 ⟨hone, hblank⟩
  · exact ⟨_, exec_setChopperConfig_of_valid hd ((s.cfg.chopValid_iff _).2 ⟨hoff, hblank⟩), rfl⟩
  · rintro i (⟨v, rfl⟩ | ⟨on, rfl⟩ | ⟨v, rfl⟩ | ⟨on, rfl⟩ | ⟨raw, rfl⟩ | ⟨rate, rfl⟩)
    · exact ⟨_, (exec_setCurrent ..).trans (indexed_of_lt _ hd), rfl⟩
    · by_cases hon : (s.driver d).en = on
      · exact ⟨_, exec_enable_of_eq hd hon, rfl⟩
      · exact ⟨_, exec_enable_of_ne hd hon, rfl⟩
    · exact ⟨_, (exec_setStallThreshold ..).trans (indexed_of_lt _ hd), rfl⟩
    · exact ⟨_, (exec_setStallFilter ..).trans (indexed_of_lt _ hd), rfl⟩
    · exact ⟨_, (exec_setCoolStepConfig ..).trans (indexed_of_lt _ hd), rfl⟩
    · exact ⟨_, (exec_setStallMinStepsPerSecond ..).trans (indexed_of_lt _ hd), rfl⟩

/-! ### The setters of a slot -/

/-- What every operation that configures a slot answers and leaves (42_config_operations.md R159). -/
theorem configured_result {i : Instr} {s : State} {d : Nat} {sl : Slot} {f : Driver → Driver} (hshaped : s.Shaped)
    (hd : d < s.n) (he : exec i s = .next (s.configureSlot d sl f)) :
    ∃ t, exec i s = .next t ∧ t.resp = some ⟨true, 0⟩ ∧ s.OnlyRecordChanged d t
      ∧ t.driver d = (f (s.driver d)).markPending sl :=
  ⟨_, he, s.configureSlot_resp d sl f, s.onlyRecordChanged_configureSlot d sl f,
    s.driver_configureSlot_same sl f (hd.trans_le hshaped)⟩

/-- Settles O25: the two fields of slot 0 are disjoint, so each holds what was written to it. -/
theorem setMicrosteppingResult : Obligations.SetMicrosteppingResult := by
  intro s d shift interp hv hshaped hd hs
  have hl := hv.slotLayout
  obtain ⟨t, he, hresp, hframe, hrecord⟩ := configured_result hshaped hd (exec_setMicrostepping_of_le hd hs interp)
  refine ⟨t, s.cfg.slotLayout.intpol.set (s.cfg.slotLayout.mres.set (s.driver d).reg.driveControl (s.cfg.mresCode shift))
    interp.toNat, he, hresp, hframe, hrecord, ?shift, ?mres, ?intpol, Field.set_set_agreesOutside _ _ _ _ _⟩
  case shift =>
    rw [hrecord]
    exact toNat_ofNat_shift hs
  case mres => rw [Field.get_set_disjoint _ _ hl.mres_intpol, Field.get_set_same _ _ _ hl.mres_inside.fits, hv.mresCode_mod hs]
  case intpol => exact Field.get_set_bit hl.intpol_inside.fits hl.intpol_width _ _

/-- Settles O26: the code of the clamped current fits `CS`, which is disjoint from the other two fields of slot 1. -/
theorem setCurrentResult : Obligations.SetCurrentResult := by
  intro s d current hv hshaped hd
  have hl := hv.slotLayout
  obtain ⟨t, he, hresp, hframe, hrecord⟩ :=
    configured_result hshaped hd ((exec_setCurrent d current s).trans (indexed_of_lt _ hd))
  refine ⟨t, s.cfg.slotLayout.cs.set (s.driver d).reg.stallGuardConfig (s.cfg.currentCode (s.cfg.clampCurrent current)),
    he, hresp, hframe, hrecord, ?_, Field.set_agreesOutside _ _ _, Field.get_set_disjoint _ _ hl.cs_sgt.symm,
    Field.get_set_disjoint _ _ hl.cs_sfilt.symm⟩
  rw [Field.get_set_same _ _ _ hl.cs_inside.fits, Nat.mod_eq_of_lt (hv.currentCode_clampCurrent_lt current),
    hv.clampCurrent_eq]

/-- Settles O30: the seven bits of `SGT` hold the code of the threshold whole. -/
theorem setStallThresholdResult : Obligations.SetStallThresholdResult := by
  intro s d v hv hshaped hd
  have hl := hv.slotLayout
  obtain ⟨t, he, hresp, hframe, hrecord⟩ :=
    configured_result hshaped hd ((exec_setStallThreshold d v s).trans (indexed_of_lt _ hd))
  refine ⟨t, s.cfg.slotLayout.sgt.set (s.driver d).reg.stallGuardConfig (stallThresholdCode v), he, hresp, hframe, hrecord,
    ?_, Field.set_agreesOutside _ _ _, Field.get_set_disjoint _ _ hl.cs_sgt, Field.get_set_disjoint _ _ hl.sgt_sfilt.symm⟩
  rw [Field.get_set_same _ _ _ hl.sgt_inside.fits, hl.sgt_width, Nat.mod_eq_of_lt (stallThresholdCode_lt v),
    signedThreshold_stallThresholdCode]

/-- Settles O31: `SFILT` is one bit. -/
theorem setStallFilterResult : Obligations.SetStallFilterResult := by
  intro s d on hv hshaped hd
  have hl := hv.slotLayout
  obtain ⟨t, he, hresp, hframe, hrecord⟩ :=
    configured_result hshaped hd ((exec_setStallFilter d on s).trans (indexed_of_lt _ hd))
  exact ⟨t, s.cfg.slotLayout.sfilt.set (s.driver d).reg.stallGuardConfig on.toNat, he, hresp, hframe, hrecord,
    Field.get_set_bit hl.sfilt_inside.fits hl.sfilt_width _ _, Field.set_agreesOutside _ _ _⟩

/-- Settles O32: the slot word takes its payload from the operand and its tag from the configuration. -/
theorem setCoolStepConfigResult : Obligations.SetCoolStepConfigResult := by
  intro s d raw hv hshaped hd
  obtain ⟨t, he, hresp, hframe, hrecord⟩ :=
    configured_result hshaped hd ((exec_setCoolStepConfig d raw s).trans (indexed_of_lt _ hd))
  exact ⟨t, s.cfg.slotWord .smartEnable raw, he, hresp, hframe, hrecord, hv.slotWord_payload .smartEnable raw,
    hv.slotWord_tag .smartEnable raw⟩

/-- Settles O27: slot 2 is regenerated from the new configured value and the enable flag. -/
theorem setChopperConfigResult : Obligations.SetChopperConfigResult := by
  intro s d raw x hv hshaped hd hx hoff hblank
  have hword : s.cfg.slotWord .chopperControl raw = x := hx.symm
  have hvalid : s.cfg.chopValid (s.cfg.slotWord .chopperControl raw) = true := by
    rw [hword]
    exact (s.cfg.chopValid_iff x).2 ⟨hoff, hblank⟩
  obtain ⟨t, he, hresp, hframe, hrecord⟩ := configured_result hshaped hd (exec_setChopperConfig_of_valid hd hvalid)
  rw [hword] at hrecord
  exact ⟨t, s.cfg.effectiveChop (s.driver d).en x, he, hresp, hframe, hrecord, hv.effectiveChop_cases _ x⟩

/-- Settles O28: the enable flag is written before slot 2 is regenerated from it. -/
theorem enableTransitionResult : Obligations.EnableTransitionResult := by
  intro s d hv hshaped hd
  refine ⟨fun hen => ?enabled, fun hen => ?disabled⟩
  case enabled =>
    have hne : (s.driver d).en ≠ true := Bool.eq_false_iff.1 hen
    obtain ⟨t, he, hresp, hframe, hrecord⟩ := configured_result hshaped hd (exec_enable_of_ne hd hne)
    exact ⟨t, s.cfg.clearStall (s.driver d).live, s.cfg.clearStall (s.driver d).acc, he, hresp, hframe, hrecord,
      hv.sg_clearStall _, Field.set_agreesOutside _ _ _, hv.sg_clearStall _, Field.set_agreesOutside _ _ _⟩
  case disabled =>
    have hne : (s.driver d).en ≠ false := fun h => Bool.eq_false_iff.1 h hen
    obtain ⟨t, he, hresp, hframe, hrecord⟩ := configured_result hshaped hd (exec_enable_of_ne hd hne)
    exact ⟨t, s.cfg.effectiveChop false (s.driver d).chopCfg, he, hresp, hframe, hrecord,
      (hv.effectiveChop_cases false (s.driver d).chopCfg).2 rfl⟩

/-! ### The setter of no slot, and the getters -/

/-- Settles O33: the quotient is a field of the record and of no slot. -/
theorem setStallMinStepsPerSecondResult : Obligations.SetStallMinStepsPerSecondResult := by
  intro s d rate hv hshaped hd
  exact ⟨_, s.cfg.maxInterval rate, (exec_setStallMinStepsPerSecond d rate s).trans (indexed_of_lt _ hd),
    State.respond_resp .., s.onlyRecordChanged_update d _ _ _,
    s.driver_updateDriver_same _ (hd.trans_le hshaped), hv.toNat_maxInterval rate⟩

/-- Settles O34: a read answers the value of the record, each as a number. -/
theorem gettersReturnAndWriteNothing : Obligations.GettersReturnAndWriteNothing :=
  fun s d hd =>
    ⟨⟨_, (exec_getMicrostepping d s).trans (indexed_of_lt _ hd), toNat_microsteppingValue _ _⟩,
      ⟨_, (exec_getChopperConfig d s).trans (indexed_of_lt _ hd), toNat_word_setWidth _⟩,
      ⟨_, (exec_isEnabled d s).trans (indexed_of_lt _ hd), toNat_ofBool_setWidth _⟩⟩

end Sys2Proof.Machine
end

section
/-! The global operations: `Init`, `Spin` and `ForceOff` (43_power_control.md R180 to R182). -/

namespace Sys2Proof.Machine

/-! ### One equation per case -/

theorem exec_init_of_inited {s : State} (count : Nat) (h : s.inited = true) : exec (.init count) s = .next s.fail := by
  simp [exec, execInit, h]

theorem exec_init_of_first {s : State} (count : Nat) (h : s.inited = false) :
    exec (.init count) s = .next (s.initialise count) := by
  simp [exec, execInit, h]

/-- Power restored to an idle chain with a driver to start (43_power_control.md R181). -/
theorem exec_spin_true_of_idle {s : State} (hp : s.powered = false) (hc : s.cur = none) (hn : 0 < s.n) :
    exec (.spin true) s = .next ((startTransfer 0 (s.resynced true)).respond true 0) := by
  have hr : s.powerRestored = startTransfer 0 (s.resynced true) := by
    rcases s.powerRestored_cases with ⟨-, -, hr⟩ | ⟨hc' | hn', -⟩
    · exact hr
    · exact absurd hc hc'
    · exact absurd hn' hn.ne'
  simp [exec, execSpin, hp, hr]

/-- Power restored with nothing to start (43_power_control.md R181 corner cases c and d). -/
theorem exec_spin_true_of_not_idle {s : State} (hp : s.powered = false) (h : s.cur ≠ none ∨ s.n = 0) :
    exec (.spin true) s = .next ((s.resynced s.irqEn).respond true 0) := by
  have hr : s.powerRestored = s.resynced s.irqEn := by
    rcases s.powerRestored_cases with ⟨hc, hn, -⟩ | ⟨-, hr⟩
    · exact absurd h (not_or_intro (not_not_intro hc) hn.ne')
    · exact hr
  simp [exec, execSpin, hp, hr]

theorem exec_spin_false_of_powered {s : State} (hp : s.powered = true) :
    exec (.spin false) s = .next (s.powerLost.respond true 0) := by
  simp [exec, execSpin, hp]

/-- `Spin` to the state held (43_power_control.md R181 corner case a). -/
theorem exec_spin_powered (s : State) : exec (.spin s.powered) s = .next (s.respond true 0) := by
  simp [exec, execSpin]

theorem exec_forceOff (s : State) : exec .forceOff s = .next (s.powerLost.respond true 0) := rfl

/-- Power that is lost already is not lost again. -/
theorem State.powerLost_of_unpowered {s : State} (hp : s.powered = false) : s.powerLost = s := by
  rw [State.powerLost, ← hp]

/-! ### `Init` -/

/-- The records after the first `Init`: the initial one in range, as they were out of range (43_power_control.md R180). -/
theorem State.driver_initialise_eq {s : State} (h : s.drivers.length = s.cfg.maxDrivers) (count d : Nat) :
    (s.initialise count).driver d = if d < (s.initialise count).n then initialDriver s.cfg else s.driver d :=
  s.driver_updateFirst _ d _ ((Nat.min_le_right _ _).trans h.ge)

/-- Slot 2 is the one slot whose initial value is not the default: a new driver is disabled (10_state.md R25). -/
theorem initialDriver_reg_of_ne (c : Cfg) {sl : Slot} (h : sl ≠ .chopperControl) :
    (initialDriver c).reg.get sl = c.defaults.get sl :=
  Slots.get_set_other _ _ h

/-- Settles O18: every driver in range has the initial record, with slot 2 the effective value of a disabled driver. -/
theorem initInstallsTheDefaults : Obligations.InitInstallsTheDefaults := by
  intro s count hv hrecords hfirst
  refine ⟨s.initialise count, exec_init_of_first count hfirst, rfl, rfl, rfl, rfl, rfl, rfl, fun d hd => ?inRange,
    fun d hd => ?outOfRange, s.length_updateFirst _ _, rfl, rfl, rfl, rfl⟩
  case inRange =>
    rw [State.driver_initialise_eq hrecords, if_pos hd]
    obtain ⟨hoff, hrest⟩ := (hv.effectiveChop_cases false s.cfg.defaults.chopperControl).2 rfl
    exact ⟨fun _ => initialDriver_reg_of_ne s.cfg, hoff, hrest, Pending.isMarked_full, rfl, rfl,
      toNat_ofNat_shift hv.defaultShift_le, rfl, hv.toNat_maxInterval _, rfl, rfl, hv.toNat_emptyMinLoad, rfl⟩
  case outOfRange => rw [State.driver_initialise_eq hrecords, if_neg (Nat.not_lt.2 hd)]

/-- Settles O19: the block is initialised already, and `fail` writes the response only. -/
theorem secondInitRefused : Obligations.SecondInitRefused :=
  fun _ count hinited => exec_init_of_inited count hinited

/-! ### Power restored -/

/-- START for a driver to be sent whole sends slot 0 (40_transfer_scheduler.md R111, 43_power_control.md R181). -/
theorem Driver.nextTransfer_resync (r : Driver) :
    r.resync.nextTransfer = (.slot .driveControl, r.reg.driveControl, { r with pend := 0b11110 }) := by
  have hlowest : Pending.lowestSet r.resync.pend = some .driveControl := by rw [Driver.resync_pend]; decide
  have hleft : Pending.unmark Pending.full .driveControl = 0b11110 := by decide
  rw [← hleft]
  rcases r.resync.nextTransfer_cases with ⟨sl, hsl, hnext⟩ | ⟨hnone, -⟩
  · cases hlowest.symm.trans hsl
    exact hnext
  · cases hlowest.symm.trans hnone

theorem State.driver_resynced_of_lt {s : State} (h : s.Shaped) (b : Bool) {d : Nat} (hd : d < s.n) :
    (s.resynced b).driver d = (s.driver d).resync :=
  (State.driver_resynced h b d).trans (if_pos hd)

theorem State.driver_resynced_of_ge {s : State} (h : s.Shaped) (b : Bool) {d : Nat} (hd : s.n ≤ d) :
    (s.resynced b).driver d = s.driver d :=
  (State.driver_resynced h b d).trans (if_neg (Nat.not_lt.2 hd))

/-- START writes the record of its own driver only (40_transfer_scheduler.md R111). -/
theorem driver_startTransfer_other (s : State) {d e : Nat} (h : e ≠ d) : (startTransfer d s).driver e = s.driver e :=
  (driver_startTransfer s d e).trans (if_neg fun hed => h hed.1)

/-- Settles O20: START is given the resynchronised driver 0. -/
theorem spinRestartsTheIdleChain : Obligations.SpinRestartsTheIdleChain := by
  intro s hshaped hp hc hn
  have hnext : ((s.resynced true).driver 0).nextTransfer =
      (.slot .driveControl, (s.driver 0).reg.driveControl, { s.driver 0 with pend := 0b11110 }) := by
    rw [State.driver_resynced_of_lt hshaped true hn, Driver.nextTransfer_resync]
  refine ⟨_, exec_spin_true_of_idle hp hc hn, rfl, rfl, rfl, rfl, ?driver0, fun d hd hdn => ?inRange,
    fun d hd => ?outOfRange, ?length, ?trace, ?ports, rfl, rfl, rfl, rfl⟩
  case driver0 =>
    have hlen : 0 < (s.resynced true).drivers.length := (s.length_resynced true).symm ▸ hn.trans_le hshaped
    rw [State.driver_respond, driver_startTransfer, if_pos ⟨rfl, hlen⟩, hnext]
  case inRange =>
    rw [State.driver_respond, driver_startTransfer_other _ hd.ne', State.driver_resynced_of_lt hshaped true hdn]
    rfl
  case outOfRange =>
    rw [State.driver_respond, driver_startTransfer_other _ (hn.trans_le hd).ne',
      State.driver_resynced_of_ge hshaped true hd]
  case length => simp
  case trace => simp [hnext]
  case ports => simp [hnext]

/-- Settles O21: without a START a restored power writes `powered` and the bitmaps. -/
theorem spinWhileDrainingStartsNothing : Obligations.SpinWhileDrainingStartsNothing := by
  intro s hshaped hp hc
  exact ⟨_, exec_spin_true_of_not_idle hp hc, rfl, rfl, fun _ hd => State.driver_resynced_of_lt hshaped s.irqEn hd,
    fun _ hd => State.driver_resynced_of_ge hshaped s.irqEn hd, s.length_resynced s.irqEn,
    rfl, rfl, rfl, rfl, rfl, rfl, rfl, rfl⟩

/-! ### Power lost -/

/-- Settles O22: losing power writes the flag, and the state held asks for nothing. -/
theorem spinOffAndIdempotentSpin : Obligations.SpinOffAndIdempotentSpin :=
  fun s => ⟨exec_spin_false_of_powered, exec_spin_powered s⟩

/-- Settles O23: while unpowered both write what is there already. -/
theorem forceOffClearsPoweredOnly : Obligations.ForceOffClearsPoweredOnly := by
  intro s
  refine ⟨exec_forceOff s, ?_⟩
  cases hp : s.powered with
  | true => rw [exec_forceOff, exec_spin_false_of_powered hp]
  | false =>
    have hheld : exec (.spin false) s = .next (s.respond true 0) := hp ▸ exec_spin_powered s
    rw [exec_forceOff, State.powerLost_of_unpowered hp, hheld]

/-- Settles O7: the strobe runs `ForceOff` on the state with the strobe taken. -/
theorem strobeIsForceOff : Obligations.StrobeIsForceOff := by
  intro s rest hinputs
  calc step s = exec .forceOff { s with inputs := rest } := step_of_cons hinputs
    _ = .next { s with inputs := rest, powered := false, resp := some ⟨true, 0⟩ } := exec_forceOff _

end Sys2Proof.Machine
end

section
/-! The power state machine (43_power_control.md R183), from what an operation does to `powered`, `cur` and `irq_en`. -/

namespace Sys2Proof.Machine

/-! ### The states -/

theorem State.powerState_eq_offIdle_iff (s : State) :
    s.powerState = .offIdle ↔ s.powered = false ∧ s.cur = none := by
  unfold State.powerState
  cases s.powered <;> cases s.cur <;> simp

theorem State.powerState_eq_onRunning_iff (s : State) :
    s.powerState = .onRunning ↔ s.powered = true ∧ s.cur ≠ none := by
  unfold State.powerState
  cases s.powered <;> cases s.cur <;> simp

theorem State.powerState_eq_offDraining_iff (s : State) :
    s.powerState = .offDraining ↔ s.powered = false ∧ s.cur ≠ none := by
  unfold State.powerState
  cases s.powered <;> cases s.cur <;> simp

theorem State.powerState_eq_onStopped_iff (s : State) :
    s.powerState = .onStopped ↔ s.powered = true ∧ s.cur = none := by
  unfold State.powerState
  cases s.powered <;> cases s.cur <;> simp

/-- A transfer is in flight in two of the states (43_power_control.md R183). -/
theorem State.cur_ne_none_iff (s : State) :
    s.cur ≠ none ↔ s.powerState = .onRunning ∨ s.powerState = .offDraining := by
  rw [s.powerState_eq_onRunning_iff, s.powerState_eq_offDraining_iff, ← or_and_right]
  exact (and_iff_right (Bool.eq_false_or_eq_true _)).symm

/-! ### What an operation does to the three control bits -/

section

variable {i : Instr} {s t : State}

/-- The operations that write `powered` in an initialised block are `Spin` and `ForceOff` (10_state.md R32). -/
theorem exec_powered_iff (hinited : s.inited = true) (he : exec i s = .next t) :
    t.powered = true ↔ i = .spin true ∨ (s.powered = true ∧ i ≠ .spin false ∧ i ≠ .forceOff) := by
  have kept (hspin : ∀ p, i ≠ .spin p) (hoff : i ≠ .forceOff) (hp : t.powered = s.powered) :
      t.powered = true ↔ i = .spin true ∨ (s.powered = true ∧ i ≠ .spin false ∧ i ≠ .forceOff) := by
    simp [hspin, hoff, hp]
  cases hi : i.driverIndex with
  | some d =>
    exact kept (fun p hs => by rw [hs] at hi; cases hi) (fun ho => by rw [ho] at hi; cases hi)
      (exec_indexed_frame hi he).powered
  | none =>
    cases i with
    | init count =>
      rw [exec_init_of_inited count hinited] at he
      cases he
      exact kept nofun nofun rfl
    | spin p =>
      rcases execSpin_cases he with ⟨rfl, -, rfl⟩ | ⟨rfl, -, rfl⟩ | ⟨rfl, rfl⟩
      · have hp : s.powerRestored.powered = true := by
          rcases s.powerRestored_eq with ⟨-, hr⟩ | ⟨-, hr⟩ <;> simp [hr]
        simp [hp]
      · simp
      · cases hp : s.powered <;> simp [hp]
    | forceOff =>
      cases he
      simp
    | complete rx iv =>
      obtain ⟨d, -, -, ⟨-, rfl⟩ | ⟨-, rfl⟩⟩ := execComplete_cases he
      · exact kept nofun nofun (by simp [advanceChain])
      · exact kept nofun nofun (by simp)
    | _ => cases hi

/-- An idle chain with a driver is started by `Spin 1` and by nothing else (40_transfer_scheduler.md R114). -/
theorem exec_cur_of_idle (h : s.Inv) (hn : 0 < s.n) (hp : s.powered = false) (hc : s.cur = none)
    (he : exec i s = .next t) : t.cur ≠ none ↔ i = .spin true := by
  refine ⟨fun hcur => ?_, fun hi => ?_⟩
  · cases exec_chainEffect h he with
    | untouched hkept => exact absurd (hkept.trans hc) hcur
    | advanced _ _ _ _ hd => cases hc.symm.trans hd
    | halted _ _ _ _ hd => cases hc.symm.trans hd
    | started hi => exact hi
  · rw [hi, exec_spin_true_of_idle hp hc hn] at he
    cases he
    simp

/-- A chain with a transfer in flight is stopped by an unpowered COMPLETE and by nothing else (40_transfer_scheduler.md
R114). -/
theorem exec_cur_of_inFlight (h : s.Inv) (hc : s.cur ≠ none) (he : exec i s = .next t) :
    t.cur = none ↔ s.powered = false ∧ ∃ rx iv, i = .complete rx iv := by
  refine ⟨fun hcur => ?_, fun ⟨hp, rx, iv, hi⟩ => ?_⟩
  · cases exec_chainEffect h he with
    | untouched hkept => exact absurd (hkept.symm.trans hcur) hc
    | advanced _ _ _ _ _ _ ht => simp [ht, advanceChain] at hcur
    | halted rx iv _ hi _ hp => exact ⟨hp, rx, iv, hi⟩
    | started _ hidle => exact absurd hidle hc
  · obtain ⟨d, hd⟩ := Option.ne_none_iff_exists'.1 hc
    rw [hi, exec_complete_unpowered rx iv hd (h.irq_iff.2 hc) hp] at he
    cases he
    simp

/-- Every operation keeps R36 item 2, whatever word a COMPLETE receives. -/
theorem exec_irqEn_iff (h : s.Inv) (he : exec i s = .next t) : t.irqEn = true ↔ t.cur ≠ none := by
  cases exec_effect he with
  | answered ok v => exact h.irq_iff
  | configured d sl f hd hf => exact h.irq_iff
  | recorded d f v hd hf => exact h.irq_iff
  | initialised count hi hfirst => exact ⟨nofun, fun hne => absurd rfl hne⟩
  | powerLost => exact h.irq_iff
  | resynced hc => exact h.irq_iff
  | started hn => simp
  | advanced d rx iv hi hc hirq => simp [advanceChain, hirq]
  | halted d hp => simp

end

/-! ### The transitions -/

/-- Settles O24: each row of R183's table from what the operation does to `powered` and to the transfer in flight. -/
theorem powerStateMachine : Obligations.PowerStateMachine := by
  intro s t i h hinited hn he
  have hpowered := exec_powered_iff hinited he
  refine ⟨fun hs => ?stopped, fun hs => ?idle, fun hs => ?running, fun hs => ?draining, ?irq⟩
  case stopped =>
    obtain ⟨hp, hc⟩ := s.powerState_eq_onStopped_iff.1 hs
    exact h.running hp hinited hn hc
  case idle =>
    obtain ⟨hp, hc⟩ := s.powerState_eq_offIdle_iff.1 hs
    have hcur := exec_cur_of_idle h hn hp hc he
    simp only [hp, Bool.false_eq_true, false_and, or_false] at hpowered
    rw [t.powerState_eq_onRunning_iff, t.powerState_eq_offIdle_iff, ← Bool.not_eq_true]
    exact ⟨fun hi => ⟨hpowered.2 hi, hcur.2 hi⟩, fun hi => ⟨mt hpowered.1 hi, not_not.1 (mt hcur.1 hi)⟩⟩
  case running =>
    obtain ⟨hp, hc⟩ := s.powerState_eq_onRunning_iff.1 hs
    have hcur : t.cur ≠ none := fun ht => by
      obtain ⟨hp', -⟩ := (exec_cur_of_inFlight h hc he).1 ht
      cases hp.symm.trans hp'
    rw [t.powerState_eq_offDraining_iff, t.powerState_eq_onRunning_iff, ← Bool.not_eq_true, hpowered]
    refine ⟨fun hi => ⟨?_, hcur⟩, fun hi => ⟨.inr ⟨hp, not_or.1 hi⟩, hcur⟩⟩
    rcases hi with rfl | rfl <;> simp
  case draining =>
    obtain ⟨hp, hc⟩ := s.powerState_eq_offDraining_iff.1 hs
    have hcur := exec_cur_of_inFlight h hc he
    simp only [hp, Bool.false_eq_true, false_and, or_false] at hpowered
    simp only [hp, true_and] at hcur
    rw [t.powerState_eq_onRunning_iff, t.powerState_eq_offIdle_iff, t.powerState_eq_offDraining_iff,
      ← Bool.not_eq_true, Ne, hpowered, hcur]
    refine ⟨fun hi => ⟨hi, ?_⟩, fun rx iv hi => ⟨?_, rx, iv, hi⟩, fun hspin hcomplete => ⟨hspin, ?_⟩⟩
    · simp [hi]
    · simp [hi]
    · simpa using hcomplete
  case irq => rw [exec_irqEn_iff h he, t.cur_ne_none_iff]

end Sys2Proof.Machine
end

section
/-! The failures of the operations, with their causes (60_exceptions.md R190, R191), and the order in which what arrives in
one cycle is taken (R198). -/

namespace Sys2Proof.Machine

/-! ### When there is a cause -/

theorem failCause_init_eq_none_iff (count : Nat) (s : State) : failCause (.init count) s = none ↔ s.inited = false := by
  simp [failCause]

/-- In every indexed command F1 is looked at before the operand. -/
theorem failCause_of_driverIndex {i : Instr} {d : Nat} (hi : i.driverIndex = some d) (s : State) :
    failCause i s = if s.n ≤ d then some .indexOutOfRange else operandFailCause s.cfg i := by
  unfold failCause
  split
  · exact absurd hi nofun
  · next hnone => cases hnone.symm.trans hi
  · next hsome => cases hsome.symm.trans hi; rfl

theorem failCause_eq_none_iff_of_driverIndex {i : Instr} {d : Nat} (hi : i.driverIndex = some d) (s : State) :
    failCause i s = none ↔ d < s.n ∧ operandFailCause s.cfg i = none := by
  rw [failCause_of_driverIndex hi]
  split
  · next hd => simp [Nat.not_lt.2 hd]
  · next hd => simp [Nat.not_le.1 hd]

theorem operandFailCause_setMicrostepping_eq_none_iff (c : Cfg) (d shift : Nat) (interp : Bool) :
    operandFailCause c (.setMicrostepping d shift interp) = none ↔ shift ≤ maxShift := by
  simp [operandFailCause]

/-- F3 and F4 together are the chopper check of `SetChopperConfig` (42_config_operations.md R153). -/
theorem operandFailCause_setChopperConfig_eq_none_iff (c : Cfg) (d : Nat) (raw : Word) :
    operandFailCause c (.setChopperConfig d raw) = none ↔ c.chopValid (c.slotWord .chopperControl raw) = true := by
  rw [c.chopValid_iff, operandFailCause]
  by_cases hoff : c.slotLayout.toff.get (c.slotWord .chopperControl raw) = 0
  · simp [hoff]
  · simp [hoff]

/-! ### A cause is enough -/

/-- An operand that one of F2 to F4 refuses fails the operation, the driver being in range. -/
theorem exec_of_operandFailCause {i : Instr} {d : Nat} {s : State} (hi : i.driverIndex = some d) (hd : d < s.n)
    (hop : operandFailCause s.cfg i ≠ none) : exec i s = .next s.fail := by
  cases i with
  | setMicrostepping e shift interp =>
    cases hi
    rw [Ne, operandFailCause_setMicrostepping_eq_none_iff] at hop
    exact exec_setMicrostepping_of_gt hd (Nat.not_le.1 hop) interp
  | setChopperConfig e raw =>
    cases hi
    exact exec_setChopperConfig_of_invalid hd (mt (operandFailCause_setChopperConfig_eq_none_iff s.cfg d raw).2 hop)
  | _ => exact absurd rfl hop

/-- An operation with a cause fails: it has a step, and the step writes the response only. -/
theorem exec_of_failCause {i : Instr} {s : State} (hc : failCause i s ≠ none) : exec i s = .next s.fail := by
  cases hi : i.driverIndex with
  | some d =>
    rw [Ne, failCause_eq_none_iff_of_driverIndex hi, not_and] at hc
    by_cases hd : d < s.n
    · exact exec_of_operandFailCause hi hd (hc hd)
    · exact indexOutOfRangeFails i d s hi (Nat.not_lt.1 hd)
  | none =>
    cases i with
    | init count =>
      rw [Ne, failCause_init_eq_none_iff, Bool.not_eq_false] at hc
      exact exec_init_of_inited count hc
    | spin p => exact absurd rfl hc
    | forceOff => exact absurd rfl hc
    | complete rx iv => exact absurd rfl hc
    | _ => cases hi

/-! ### Without a cause nothing fails -/

section
variable {i : Instr} {s t : State}

/-- An indexed command without a cause runs its body, so it answers what the body answers for an accepted operand. -/
theorem succeeds_of_indexed {d : Nat} {k : State → State} (hc : failCause i s = none) (he : exec i s = .next t)
    (hi : i.driverIndex = some d) (heq : exec i s = indexed d s k)
    (hk : operandFailCause s.cfg i = none → ∃ v, (k s).resp = some ⟨true, v⟩) : ∃ v, t.resp = some ⟨true, v⟩ := by
  obtain ⟨hd, hop⟩ := (failCause_eq_none_iff_of_driverIndex hi s).1 hc
  rw [heq, indexed_of_lt k hd] at he
  cases he
  exact hk hop

theorem exec_complete_resp {rx : Word} {iv : BitVec 32} (he : exec (.complete rx iv) s = .next t) : t.resp = none := by
  obtain ⟨d, -, -, ⟨-, rfl⟩ | ⟨-, rfl⟩⟩ := execComplete_cases he <;> exact State.noResponse_resp _

/-- A command without a cause succeeds, and COMPLETE makes no response (30_encoding.md R86). -/
theorem exec_resp_of_failCause_eq_none (hc : failCause i s = none) (he : exec i s = .next t) :
    t.resp = none ∨ ∃ v, t.resp = some ⟨true, v⟩ := by
  cases i with
  | complete rx iv => exact .inl (exec_complete_resp he)
  | init count =>
    rw [exec_init_of_first count ((failCause_init_eq_none_iff count s).1 hc)] at he
    cases he
    exact .inr ⟨_, s.initialise_resp count⟩
  | spin p =>
    rcases execSpin_cases he with ⟨-, -, rfl⟩ | ⟨-, -, rfl⟩ | ⟨-, rfl⟩ <;> exact .inr ⟨0, State.respond_resp _ true 0⟩
  | forceOff => cases he; exact .inr ⟨_, rfl⟩
  | setMicrostepping d shift interp =>
    refine .inr (succeeds_of_indexed hc he rfl (exec_setMicrostepping ..) fun hop => ?_)
    rw [operandFailCause_setMicrostepping_eq_none_iff] at hop
    exact ⟨0, by rw [if_neg (Nat.not_lt.2 hop), State.configureSlot_resp]⟩
  | setChopperConfig d raw =>
    refine .inr (succeeds_of_indexed hc he rfl (exec_setChopperConfig ..) fun hop => ?_)
    rw [operandFailCause_setChopperConfig_eq_none_iff] at hop
    exact ⟨0, by rw [if_pos hop, State.configureSlot_resp]⟩
  | enable d on =>
    refine .inr (succeeds_of_indexed hc he rfl (exec_enable ..) fun _ => ⟨0, ?_⟩)
    split <;> rfl
  | setCurrent d current => exact .inr (succeeds_of_indexed hc he rfl (exec_setCurrent ..) fun _ => ⟨_, rfl⟩)
  | setStallThreshold d v => exact .inr (succeeds_of_indexed hc he rfl (exec_setStallThreshold ..) fun _ => ⟨_, rfl⟩)
  | setStallFilter d on => exact .inr (succeeds_of_indexed hc he rfl (exec_setStallFilter ..) fun _ => ⟨_, rfl⟩)
  | setCoolStepConfig d raw => exact .inr (succeeds_of_indexed hc he rfl (exec_setCoolStepConfig ..) fun _ => ⟨_, rfl⟩)
  | setStallMinStepsPerSecond d rate =>
    exact .inr (succeeds_of_indexed hc he rfl (exec_setStallMinStepsPerSecond ..) fun _ => ⟨_, rfl⟩)
  | getMicrostepping d => exact .inr (succeeds_of_indexed hc he rfl (exec_getMicrostepping ..) fun _ => ⟨_, rfl⟩)
  | getChopperConfig d => exact .inr (succeeds_of_indexed hc he rfl (exec_getChopperConfig ..) fun _ => ⟨_, rfl⟩)
  | isEnabled d => exact .inr (succeeds_of_indexed hc he rfl (exec_isEnabled ..) fun _ => ⟨_, rfl⟩)
  | readLiveStatus d => exact .inr (succeeds_of_indexed hc he rfl (exec_readLiveStatus ..) fun _ => ⟨_, rfl⟩)
  | readAccumulatedStatus d mask =>
    exact .inr (succeeds_of_indexed hc he rfl (exec_readAccumulatedStatus ..) fun _ => ⟨_, rfl⟩)
  | appendStatusReport d => exact .inr (succeeds_of_indexed hc he rfl (exec_appendStatusReport ..) fun _ => ⟨_, rfl⟩)
  | appendStallConfig d => exact .inr (succeeds_of_indexed hc he rfl (exec_appendStallConfig ..) fun _ => ⟨_, rfl⟩)

end

/-- Settles O16: with a cause the step is `fail`; without one the response is a success or is not made. -/
theorem failExactlyOnTheListedCauses : Obligations.FailExactlyOnTheListedCauses := by
  intro i s t he
  have hfail : failCause i s ≠ none → t = s.fail := fun hc => by
    cases he.symm.trans (exec_of_failCause hc)
    rfl
  refine ⟨⟨fun ⟨v, hv⟩ hc => ?_, fun hc => ⟨0, ?_⟩⟩, hfail⟩
  · rcases exec_resp_of_failCause_eq_none hc he with hnone | ⟨w, hok⟩
    · cases hv.symm.trans hnone
    · cases hv.symm.trans hok
  · rw [hfail hc, State.fail_resp]

/-! ### Arrivals of one cycle -/

/-- Settles O58: each combination of arrivals is evaluated; a completion arrives as the word the encoder writes for it. -/
theorem sameCycleOrder : Obligations.SameCycleOrder :=
  fun _ _ _ => ⟨rfl, rfl, rfl, rfl⟩

end Sys2Proof.Machine
end

section
/-! The reset state (10_state.md R37, 70_reset_and_hazards.md R220, R221): a step that takes the reset input leaves it, and
only `Init` brings a driver into range from it. -/

namespace Sys2Proof.Machine

/-! ### The reset input -/

theorem step_of_resetInput {s : State} {rest : List Stimulus} (h : s.inputs = .resetInput :: rest) :
    step s = .next (State.resetByInput { s with inputs := rest }) :=
  step_of_cons h

/-- While no transfer is in flight no select line is asserted (10_state.md R35 a). -/
theorem State.selectLine_of_idle {s : State} (hc : s.cur = none) (signal : Nat) : s.selectLine signal = false := by
  rw [State.selectLine, hc]

/-- Settles O8: the step leaves the power-on state with what was recorded and what is still to come. -/
theorem resetInputResets : Obligations.ResetInputResets := by
  intro s rest hinputs
  have hcur : (State.resetByInput { s with inputs := rest }).cur = none := State.resetByInput_cur _
  exact ⟨_, step_of_resetInput hinputs, rfl, rfl, rfl, rfl, hcur, rfl, List.length_replicate, rfl,
    State.selectLine_of_idle hcur, rfl, rfl, rfl⟩

/-! ### Operations in the reset state -/

/-- With no driver in range a resync has no record to write. -/
theorem State.resynced_of_n_eq_zero {s : State} (hn : s.n = 0) (b : Bool) :
    s.resynced b = { s with powered := true, irqEn := b } := by
  simp [State.resynced, State.updateFirst, hn]

/-- Power restored with no driver in range (43_power_control.md R181 corner case d). -/
theorem exec_spin_true_of_n_eq_zero {s : State} (hp : s.powered = false) (hn : s.n = 0) :
    exec (.spin true) s = .next { s with powered := true, resp := some ⟨true, 0⟩ } := by
  rw [exec_spin_true_of_not_idle hp (.inr hn), State.resynced_of_n_eq_zero hn]
  rfl

/-- The first driver comes into range by an `Init`, in any state (43_power_control.md R180). -/
theorem exists_init_of_exec_n_pos {i : Instr} {s t : State} (hn : s.n = 0) (he : exec i s = .next t) (ht : 0 < t.n) :
    ∃ count, i = .init count := by
  rcases (exec_effect he).count_cases with ⟨hkept, -⟩ | ⟨count, hi, -, -⟩
  · exact absurd (hkept.trans hn) ht.ne'
  · exact ⟨count, hi⟩

/-- Settles O10: no index is in range of an empty block, and power that is off is not lost. -/
theorem onlyInitBringsDriversIntoRange : Obligations.OnlyInitBringsDriversIntoRange := by
  intro c
  have hn : (State.powerOn c).n = 0 := rfl
  have hp : (State.powerOn c).powered = false := rfl
  have hdisabled : (State.powerOn c).completeEnabled = false := (State.completeEnabled_eq_false_iff _).2 (.inl rfl)
  refine ⟨fun i d hi => ?indexed, exec_spin_true_of_n_eq_zero hp hn, exec_spin_powered (State.powerOn c),
    exec_forceOff (State.powerOn c), fun rx iv => exec_complete_of_not_enabled rx iv hdisabled,
    fun i t he ht => exists_init_of_exec_n_pos hn he ht⟩
  case indexed => exact indexOutOfRangeFails i d (State.powerOn c) hi (Nat.zero_le d)

end Sys2Proof.Machine
end
